-- ==== Sys2Proof/Word.lean ====
section
/-! DEFINITION. The word types of the machine: bytes, 16-bit words and register numbers (spec/00_scope.md R6, R8). -/

namespace Sys2Proof

/-- A u8: a register, a timer, a memory byte, a random byte (R6, R8). -/
abbrev Byte := BitVec 8

/-- A u16: I, PC, a stack entry, an instruction word (R6, R8). -/
abbrev Word := BitVec 16

/-- The number of a general register, 0 to 15 (10_state.md R21). It is an index, never a word. -/
abbrev Reg := Fin 16

/-- VF, register 15, which doubles as the flag register (10_state.md R22). -/
def VF : Reg := 15

/-- V0, the register Bnnn adds (40_control_flow.md R118). -/
def V0 : Reg := 0

end Sys2Proof
end

