-- ==== Sys2Proof/Syntax.lean ====
section
/-! DEFINITION. The 34 instructions, one constructor for each row of spec/opcode_table.json, in the table's order
(spec/30_encoding.md R90). -/

namespace Sys2Proof

/-- An instruction with its operands. `x` and `y` are the register numbers of the fields of that name, `kk` the byte
immediate, `nnn` the 12-bit address and `n` the row count (30_encoding.md R86, R89). -/
inductive Instr where
  /-- `00E0` CLS -/
  | cls
  /-- `00EE` RET -/
  | ret
  /-- `1nnn` JP addr -/
  | jp (nnn : BitVec 12)
  /-- `2nnn` CALL addr -/
  | call (nnn : BitVec 12)
  /-- `3xkk` SE Vx, byte -/
  | seImm (x : Reg) (kk : Byte)
  /-- `4xkk` SNE Vx, byte -/
  | sneImm (x : Reg) (kk : Byte)
  /-- `5xy0` SE Vx, Vy -/
  | seReg (x y : Reg)
  /-- `6xkk` LD Vx, byte -/
  | ldImm (x : Reg) (kk : Byte)
  /-- `7xkk` ADD Vx, byte -/
  | addImm (x : Reg) (kk : Byte)
  /-- `8xy0` LD Vx, Vy -/
  | ldReg (x y : Reg)
  /-- `8xy1` OR Vx, Vy -/
  | or (x y : Reg)
  /-- `8xy2` AND Vx, Vy -/
  | and (x y : Reg)
  /-- `8xy3` XOR Vx, Vy -/
  | xor (x y : Reg)
  /-- `8xy4` ADD Vx, Vy -/
  | addReg (x y : Reg)
  /-- `8xy5` SUB Vx, Vy -/
  | sub (x y : Reg)
  /-- `8xy6` SHR Vx; the field `y` is kept though ignored, any value of it is legal (R89; log entry 12) -/
  | shr (x y : Reg)
  /-- `8xy7` SUBN Vx, Vy -/
  | subn (x y : Reg)
  /-- `8xyE` SHL Vx; the field `y` is kept though ignored, any value of it is legal (R89; log entry 12) -/
  | shl (x y : Reg)
  /-- `9xy0` SNE Vx, Vy -/
  | sneReg (x y : Reg)
  /-- `Annn` LD I, addr -/
  | ldI (nnn : BitVec 12)
  /-- `Bnnn` JP V0, addr -/
  | jpV0 (nnn : BitVec 12)
  /-- `Cxkk` RND Vx, byte -/
  | rnd (x : Reg) (kk : Byte)
  /-- `Dxyn` DRW Vx, Vy, nibble; `n` counts sprite rows -/
  | drw (x y : Reg) (n : Nat)
  /-- `Ex9E` SKP Vx -/
  | skp (x : Reg)
  /-- `ExA1` SKNP Vx -/
  | sknp (x : Reg)
  /-- `Fx07` LD Vx, DT -/
  | ldVxDt (x : Reg)
  /-- `Fx0A` LD Vx, K -/
  | ldVxK (x : Reg)
  /-- `Fx15` LD DT, Vx -/
  | ldDtVx (x : Reg)
  /-- `Fx18` LD ST, Vx -/
  | ldStVx (x : Reg)
  /-- `Fx1E` ADD I, Vx -/
  | addIVx (x : Reg)
  /-- `Fx29` LD F, Vx -/
  | ldFVx (x : Reg)
  /-- `Fx33` LD B, Vx -/
  | ldBVx (x : Reg)
  /-- `Fx55` LD [I], Vx -/
  | ldMemVx (x : Reg)
  /-- `Fx65` LD Vx, [I] -/
  | ldVxMem (x : Reg)
deriving DecidableEq, Repr

end Sys2Proof
end

