-- ==== Sys2Proof/WellFormed.lean ====
section
/-! DEFINITION. Which instructions the encoding admits. Register numbers and immediates are in range by their types, and
every value of them is legal (spec/30_encoding.md R88, R89), so one check is left: a row count is 0 to 15 (R88). -/

namespace Sys2Proof

/-- The instruction has an encoding. -/
def Instr.wellFormed : Instr → Bool
  | .drw _ _ n => n ≤ 15
  | .cls | .ret | .jp _ | .call _ | .seImm _ _ | .sneImm _ _ | .seReg _ _ | .ldImm _ _ | .addImm _ _ | .ldReg _ _
  | .or _ _ | .and _ _ | .xor _ _ | .addReg _ _ | .sub _ _ | .shr _ _ | .subn _ _ | .shl _ _ | .sneReg _ _ | .ldI _
  | .jpV0 _ | .rnd _ _ | .skp _ | .sknp _ | .ldVxDt _ | .ldVxK _ | .ldDtVx _ | .ldStVx _ | .addIVx _ | .ldFVx _
  | .ldBVx _ | .ldMemVx _ | .ldVxMem _ => true

end Sys2Proof
end

