-- ==== Sys2Proof/Decode.lean ====
section
/-! DEFINITION. Decoding of bytes and words, total and with named rejections, then the encoder, both written from
spec/30_encoding.md R85 to R93, and the pattern table of spec/opcode_table.json as data. -/

namespace Sys2Proof

/-- The word that two consecutive bytes hold: the byte at the lower address is the high byte (20_memory.md R66). -/
def wordOfBytes (hi lo : Byte) : Word := hi ++ lo

/-! ### Fields (R86) -/

/-- `op`, the top nibble `w[15:12]`. -/
def fieldOp (w : Word) : Nat := (w.extractLsb' 12 4).toNat

/-- `x = w[11:8]`, a register number. -/
def fieldX (w : Word) : Reg := (w.extractLsb' 8 4).toFin

/-- `y = w[7:4]`, a register number. -/
def fieldY (w : Word) : Reg := (w.extractLsb' 4 4).toFin

/-- `n = w[3:0]`, a sub-opcode or a row count. -/
def fieldN (w : Word) : Nat := (w.extractLsb' 0 4).toNat

/-- `kk = w[7:0]`, a byte immediate or a sub-opcode. -/
def fieldKK (w : Word) : Byte := w.extractLsb' 0 8

/-- `nnn = w[11:0]`, an address immediate. -/
def fieldNNN (w : Word) : BitVec 12 := w.extractLsb' 0 12

/-! ### The decoder -/

/-- Op 8 dispatches on `n` (R90). -/
def decodeOp8 (w : Word) : Option Instr :=
  match fieldN w with
  | 0x0 => some (.ldReg (fieldX w) (fieldY w))
  | 0x1 => some (.or (fieldX w) (fieldY w))
  | 0x2 => some (.and (fieldX w) (fieldY w))
  | 0x3 => some (.xor (fieldX w) (fieldY w))
  | 0x4 => some (.addReg (fieldX w) (fieldY w))
  | 0x5 => some (.sub (fieldX w) (fieldY w))
  | 0x6 => some (.shr (fieldX w) (fieldY w))
  | 0x7 => some (.subn (fieldX w) (fieldY w))
  | 0xE => some (.shl (fieldX w) (fieldY w))
  | _ => none

/-- Op E dispatches on `kk` (R90). -/
def decodeOpE (w : Word) : Option Instr :=
  match (fieldKK w).toNat with
  | 0x9E => some (.skp (fieldX w))
  | 0xA1 => some (.sknp (fieldX w))
  | _ => none

/-- Op F dispatches on `kk` (R90). -/
def decodeOpF (w : Word) : Option Instr :=
  match (fieldKK w).toNat with
  | 0x07 => some (.ldVxDt (fieldX w))
  | 0x0A => some (.ldVxK (fieldX w))
  | 0x15 => some (.ldDtVx (fieldX w))
  | 0x18 => some (.ldStVx (fieldX w))
  | 0x1E => some (.addIVx (fieldX w))
  | 0x29 => some (.ldFVx (fieldX w))
  | 0x33 => some (.ldBVx (fieldX w))
  | 0x55 => some (.ldMemVx (fieldX w))
  | 0x65 => some (.ldVxMem (fieldX w))
  | _ => none

/-- `Decode(w)`: a pure, total function of the word alone; `none` is the spec's `invalid` (R90, R91, R93). -/
def decodeWord (w : Word) : Option Instr :=
  match fieldOp w with
  | 0x0 => if w = 0x00E0#16 then some .cls else if w = 0x00EE#16 then some .ret else none
  | 0x1 => some (.jp (fieldNNN w))
  | 0x2 => some (.call (fieldNNN w))
  | 0x3 => some (.seImm (fieldX w) (fieldKK w))
  | 0x4 => some (.sneImm (fieldX w) (fieldKK w))
  | 0x5 => if fieldN w = 0 then some (.seReg (fieldX w) (fieldY w)) else none
  | 0x6 => some (.ldImm (fieldX w) (fieldKK w))
  | 0x7 => some (.addImm (fieldX w) (fieldKK w))
  | 0x8 => decodeOp8 w
  | 0x9 => if fieldN w = 0 then some (.sneReg (fieldX w) (fieldY w)) else none
  | 0xA => some (.ldI (fieldNNN w))
  | 0xB => some (.jpV0 (fieldNNN w))
  | 0xC => some (.rnd (fieldX w) (fieldKK w))
  | 0xD => some (.drw (fieldX w) (fieldY w) (fieldN w))
  | 0xE => decodeOpE w
  | 0xF => decodeOpF w
  | _ => none

/-- Why bytes are no instruction. -/
inductive DecodeReject where
  /-- Fewer than two bytes: a decoder always consumes exactly two (R85). -/
  | truncated
  /-- An unrecognized opcode (R91). -/
  | unrecognized (w : Word)
deriving DecidableEq, Repr

/-- What the decoder answers: an instruction and the bytes after it, or a rejection by name. -/
inductive DecodeResult where
  | instr (i : Instr) (rest : List Byte)
  | rejected (why : DecodeReject)
deriving DecidableEq, Repr

/-- The decoder over bytes in memory order: it takes exactly two (R85). -/
def decode : List Byte → DecodeResult
  | hi :: lo :: rest =>
    match decodeWord (wordOfBytes hi lo) with
    | some i => .instr i rest
    | none => .rejected (.unrecognized (wordOfBytes hi lo))
  | [_] => .rejected .truncated
  | [] => .rejected .truncated

/-! ### The encoder -/

/-- The 4 bits of a register number. -/
def regBits (r : Reg) : BitVec 4 := BitVec.ofFin (w := 4) r

/-- Format NNN (R87). -/
def encodeNNN (op : BitVec 4) (nnn : BitVec 12) : Word := op ++ nnn

/-- Formats XKK and XFN (R87); in XFN the byte is the sub-opcode. -/
def encodeXKK (op : BitVec 4) (x : Reg) (kk : Byte) : Word := op ++ regBits x ++ kk

/-- Format XYN (R87). -/
def encodeXYN (op : BitVec 4) (x y : Reg) (n : BitVec 4) : Word := op ++ regBits x ++ regBits y ++ n

/-- The word of an instruction, from the patterns of R90 (of a well-formed one: a row count above 15 has no word, and
only its low four bits would be kept). -/
def encodeWord : Instr → Word
  | .cls => 0x00E0#16
  | .ret => 0x00EE#16
  | .jp nnn => encodeNNN 0x1 nnn
  | .call nnn => encodeNNN 0x2 nnn
  | .seImm x kk => encodeXKK 0x3 x kk
  | .sneImm x kk => encodeXKK 0x4 x kk
  | .seReg x y => encodeXYN 0x5 x y 0x0
  | .ldImm x kk => encodeXKK 0x6 x kk
  | .addImm x kk => encodeXKK 0x7 x kk
  | .ldReg x y => encodeXYN 0x8 x y 0x0
  | .or x y => encodeXYN 0x8 x y 0x1
  | .and x y => encodeXYN 0x8 x y 0x2
  | .xor x y => encodeXYN 0x8 x y 0x3
  | .addReg x y => encodeXYN 0x8 x y 0x4
  | .sub x y => encodeXYN 0x8 x y 0x5
  | .shr x y => encodeXYN 0x8 x y 0x6
  | .subn x y => encodeXYN 0x8 x y 0x7
  | .shl x y => encodeXYN 0x8 x y 0xE
  | .sneReg x y => encodeXYN 0x9 x y 0x0
  | .ldI nnn => encodeNNN 0xA nnn
  | .jpV0 nnn => encodeNNN 0xB nnn
  | .rnd x kk => encodeXKK 0xC x kk
  | .drw x y n => encodeXYN 0xD x y (BitVec.ofNat 4 n)
  | .skp x => encodeXKK 0xE x 0x9E
  | .sknp x => encodeXKK 0xE x 0xA1
  | .ldVxDt x => encodeXKK 0xF x 0x07
  | .ldVxK x => encodeXKK 0xF x 0x0A
  | .ldDtVx x => encodeXKK 0xF x 0x15
  | .ldStVx x => encodeXKK 0xF x 0x18
  | .addIVx x => encodeXKK 0xF x 0x1E
  | .ldFVx x => encodeXKK 0xF x 0x29
  | .ldBVx x => encodeXKK 0xF x 0x33
  | .ldMemVx x => encodeXKK 0xF x 0x55
  | .ldVxMem x => encodeXKK 0xF x 0x65

/-- The two bytes of a word in memory order, the high byte first (20_memory.md R66). -/
def bytesOfWord (w : Word) : List Byte := [w.extractLsb' 8 8, w.extractLsb' 0 8]

/-- The bytes of an instruction in memory order. -/
def encode (i : Instr) : List Byte := bytesOfWord (encodeWord i)

/-- The instruction the decoder reads from the word `w` of a row of spec/opcode_table.json of `nbits` bits, laid out in
memory order; an instruction is one 16-bit word, so bits above `nbits` are 0 and there are none above 16. -/
def decodeTableWord (nbits w : Nat) : Option Instr :=
  match decode (bytesOfWord (BitVec.ofNat 16 (w % 2 ^ nbits))) with
  | .instr i _ => some i
  | .rejected _ => none

/-! ### The opcode map as data (spec/30_encoding.md R90, spec/opcode_table.json) -/

/-- One row: a word matches the pattern where its bits under `mask` are those of `value`; the instruction takes its operands
from the fields the pattern's letters name. -/
structure OpcodeRow where
  mask : Word
  value : Word
  instr : Word → Instr

/-- The word matches the row's pattern. -/
def OpcodeRow.matchesWord (p : OpcodeRow) (w : Word) : Bool := w &&& p.mask == p.value

/-- Patterns 00E0 to 7xkk. -/
def opcodeRows0 : List OpcodeRow := [
  ⟨0xFFFF, 0x00E0, fun _ => .cls⟩,
  ⟨0xFFFF, 0x00EE, fun _ => .ret⟩,
  ⟨0xF000, 0x1000, fun w => .jp (fieldNNN w)⟩,
  ⟨0xF000, 0x2000, fun w => .call (fieldNNN w)⟩,
  ⟨0xF000, 0x3000, fun w => .seImm (fieldX w) (fieldKK w)⟩,
  ⟨0xF000, 0x4000, fun w => .sneImm (fieldX w) (fieldKK w)⟩,
  ⟨0xF00F, 0x5000, fun w => .seReg (fieldX w) (fieldY w)⟩,
  ⟨0xF000, 0x6000, fun w => .ldImm (fieldX w) (fieldKK w)⟩,
  ⟨0xF000, 0x7000, fun w => .addImm (fieldX w) (fieldKK w)⟩]

/-- Patterns 8xy0 to 9xy0. -/
def opcodeRows8 : List OpcodeRow := [
  ⟨0xF00F, 0x8000, fun w => .ldReg (fieldX w) (fieldY w)⟩,
  ⟨0xF00F, 0x8001, fun w => .or (fieldX w) (fieldY w)⟩,
  ⟨0xF00F, 0x8002, fun w => .and (fieldX w) (fieldY w)⟩,
  ⟨0xF00F, 0x8003, fun w => .xor (fieldX w) (fieldY w)⟩,
  ⟨0xF00F, 0x8004, fun w => .addReg (fieldX w) (fieldY w)⟩,
  ⟨0xF00F, 0x8005, fun w => .sub (fieldX w) (fieldY w)⟩,
  ⟨0xF00F, 0x8006, fun w => .shr (fieldX w) (fieldY w)⟩,
  ⟨0xF00F, 0x8007, fun w => .subn (fieldX w) (fieldY w)⟩,
  ⟨0xF00F, 0x800E, fun w => .shl (fieldX w) (fieldY w)⟩,
  ⟨0xF00F, 0x9000, fun w => .sneReg (fieldX w) (fieldY w)⟩]

/-- Patterns Annn to Dxyn. -/
def opcodeRowsA : List OpcodeRow := [
  ⟨0xF000, 0xA000, fun w => .ldI (fieldNNN w)⟩,
  ⟨0xF000, 0xB000, fun w => .jpV0 (fieldNNN w)⟩,
  ⟨0xF000, 0xC000, fun w => .rnd (fieldX w) (fieldKK w)⟩,
  ⟨0xF000, 0xD000, fun w => .drw (fieldX w) (fieldY w) (fieldN w)⟩]

/-- Patterns Ex9E to Fx65. -/
def opcodeRowsE : List OpcodeRow := [
  ⟨0xF0FF, 0xE09E, fun w => .skp (fieldX w)⟩,
  ⟨0xF0FF, 0xE0A1, fun w => .sknp (fieldX w)⟩,
  ⟨0xF0FF, 0xF007, fun w => .ldVxDt (fieldX w)⟩,
  ⟨0xF0FF, 0xF00A, fun w => .ldVxK (fieldX w)⟩,
  ⟨0xF0FF, 0xF015, fun w => .ldDtVx (fieldX w)⟩,
  ⟨0xF0FF, 0xF018, fun w => .ldStVx (fieldX w)⟩,
  ⟨0xF0FF, 0xF01E, fun w => .addIVx (fieldX w)⟩,
  ⟨0xF0FF, 0xF029, fun w => .ldFVx (fieldX w)⟩,
  ⟨0xF0FF, 0xF033, fun w => .ldBVx (fieldX w)⟩,
  ⟨0xF0FF, 0xF055, fun w => .ldMemVx (fieldX w)⟩,
  ⟨0xF0FF, 0xF065, fun w => .ldVxMem (fieldX w)⟩]

/-- The opcode map: one row per instruction, 34 rows, in the table's order (R90). -/
def opcodeMap : List OpcodeRow := opcodeRows0 ++ opcodeRows8 ++ opcodeRowsA ++ opcodeRowsE

end Sys2Proof
end

