-- ==== Sys2Proof/Config.lean ====
section
/-! DEFINITION. What is fixed for the machine (spec/00_scope.md R6) and the free values: what the host supplies where no
script says it (10_state.md R32, R40, 44_keypad_timers.md R210). -/

namespace Sys2Proof

/-- KEY_WAIT_MODE (10_state.md R36): which of the two designs of Fx0A the machine has. -/
inductive KeyWaitMode where
  /-- The default and reference behaviour (44_keypad_timers.md R206, R208). -/
  | asyncLatch
  /-- The alternate mode (44_keypad_timers.md R207). -/
  | blocking
deriving DecidableEq, Repr

/-- FONT_TABLE (R6, 20_memory.md R64): the 80 bytes a machine has as its font, glyph after glyph. It is a parameter of the
machine (93_implementation_defined.md U9); the default is `Machine.defaultFont`. -/
abbrev FontTable := Vector Byte 80

namespace Config

/-- MEM_SIZE: addresses 0x000 to 0xFFF (R6). -/
abbrev memSize : Nat := 0x1000

/-- FONT_BASE: the first byte of the font table (R6). -/
abbrev fontBase : Nat := 0x050

/-- FONT_GLYPH_BYTES: the bytes of one glyph (R6). -/
abbrev glyphBytes : Nat := 5

/-- The last byte of the font table (20_memory.md R63). -/
abbrev fontLast : Nat := 0x09F

/-- PROGRAM_BASE: where `load` places a program and where PC starts (R6). -/
abbrev programBase : Nat := 0x200

/-- PROGRAM_MAX: the most bytes `load` takes (R6). -/
abbrev programMax : Nat := 3584

/-- FREE VALUE: the keypad snapshot of the n-th tick no script describes (10_state.md R32). Log entry 4. -/
opaque drawKeys : Nat → Vector Bool 16

/-- FREE VALUE: the random byte of the n-th tick no script describes, a draw under no law (10_state.md R40, D19).
Log entry 4. -/
opaque drawRand : Nat → Byte

/-- FREE VALUE: how many timer ticks the host delivers before the n-th tick no script describes
(44_keypad_timers.md R210). Log entry 4. -/
opaque drawTimerTicks : Nat → Nat

end Config

end Sys2Proof
end

