-- ==== Sys2Proof/Machine/Memory.lean ====
section
/-! DEFINITION. Memory (spec/20_memory.md): the default font table, what an unlisted address reads as, one-byte reads and
writes in canonical form, the multi-byte transfers built from them, and memory at construction. -/

namespace Sys2Proof.Machine

/-- The memory: address and byte pairs at strictly rising addresses, no byte equal to what an unlisted address reads as. -/
abbrev Memory := List Host.Cell

/-! ### The default font table -/

/-- The default FONT_TABLE, glyphs 0 to 3 (R64). PRESUMED: the spec takes the 80 byte values from general knowledge (log entry 9). -/
def fontTable0 : List Byte :=
  [0xF0, 0x90, 0x90, 0x90, 0xF0] ++ [0x20, 0x60, 0x20, 0x20, 0x70] ++ [0xF0, 0x10, 0xF0, 0x80, 0xF0]
    ++ [0xF0, 0x10, 0xF0, 0x10, 0xF0]

/-- The default FONT_TABLE, glyphs 4 to 7 (R64). -/
def fontTable4 : List Byte :=
  [0x90, 0x90, 0xF0, 0x10, 0x10] ++ [0xF0, 0x80, 0xF0, 0x10, 0xF0] ++ [0xF0, 0x80, 0xF0, 0x90, 0xF0]
    ++ [0xF0, 0x10, 0x20, 0x40, 0x40]

/-- The default FONT_TABLE, glyphs 8 to B (R64). -/
def fontTable8 : List Byte :=
  [0xF0, 0x90, 0xF0, 0x90, 0xF0] ++ [0xF0, 0x90, 0xF0, 0x10, 0xF0] ++ [0xF0, 0x90, 0xF0, 0x90, 0x90]
    ++ [0xE0, 0x90, 0xE0, 0x90, 0xE0]

/-- The default FONT_TABLE, glyphs C to F (R64). -/
def fontTableC : List Byte :=
  [0xF0, 0x80, 0x80, 0x80, 0xF0] ++ [0xE0, 0x90, 0x90, 0x90, 0xE0] ++ [0xF0, 0x80, 0xF0, 0x80, 0xF0]
    ++ [0xF0, 0x80, 0xF0, 0x80, 0x80]

/-- The default FONT_TABLE: 16 glyphs of 5 bytes (R64). -/
def fontTable : List Byte := fontTable0 ++ fontTable4 ++ fontTable8 ++ fontTableC

/-- The default of the parameter FONT_TABLE (00_scope.md R6, R64). -/
def defaultFont : FontTable := Vector.mk fontTable.toArray rfl

/-- The address lies in the write-protected font region 0x050 to 0x09F (R65). -/
def inFont (a : Nat) : Bool := Config.fontBase ≤ a && a ≤ Config.fontLast

/-- The reset contents of a byte of a machine with the default font: the font, and 0 elsewhere (10_state.md R41,
70_reset_and_hazards.md R255). It is what an address that the memory does not list reads as; a machine with another font
lists the bytes that differ. -/
def resetByte (a : Nat) : Byte := if inFont a then fontTable.getD (a - Config.fontBase) 0 else 0

/-! ### One byte -/

/-- `mem[a]`, with no check (R61 checks first). -/
def Memory.read : Memory → Nat → Byte
  | [], a => resetByte a
  | (b, x) :: m, a => if a = b then x else Memory.read m a

/-- `mem[a] <- x`, with no check (R62 checks first). It keeps the canonical form: the addresses rise, and a byte that an
unlisted address would read as is not listed. -/
def Memory.write : Memory → Nat → Byte → Memory
  | [], a, x => if x = resetByte a then [] else [(a, x)]
  | (b, y) :: m, a, x =>
    if a < b then (if x = resetByte a then (b, y) :: m else (a, x) :: (b, y) :: m)
    else if a = b then (if x = resetByte a then m else (a, x) :: m)
    else (b, y) :: Memory.write m a x

/-- The cells are in canonical form from the address `lo` upward: rising, inside the address space (R60), and none equal to
what an unlisted address reads as. -/
def Memory.wfFrom : Nat → Memory → Bool
  | _, [] => true
  | lo, (a, x) :: m => lo ≤ a && a < Config.memSize && x != resetByte a && Memory.wfFrom (a + 1) m

/-- The canonical form. -/
def Memory.wf (m : Memory) : Bool := Memory.wfFrom 0 m

/-! ### Multi-byte transfers: byte j at `base + j`, a natural that does not wrap (R61, R67) -/

/-- The addresses of an access of `n` bytes from `base`, in order. -/
def accessAddrs (base n : Nat) : List Nat := (List.range n).map (base + ·)

/-- The first address of the access above 0xFFF; `none` is `RangeOK(base, n)` (R61, 42_index_memory.md R160). -/
def firstOutOfRange (base n : Nat) : Option Nat := (accessAddrs base n).find? (fun a => Config.memSize ≤ a)

/-- The first address of the access in the font region (R65, 42_index_memory.md R160). -/
def firstProtected (base n : Nat) : Option Nat := (accessAddrs base n).find? inFont

/-- The `n` bytes at `base`, in order. -/
def Memory.readBytes (m : Memory) (base n : Nat) : List Byte := (accessAddrs base n).map m.read

/-- Byte j of the list goes to `base + j`. -/
def Memory.writeBytes : Memory → Nat → List Byte → Memory
  | m, _, [] => m
  | m, base, x :: xs => Memory.writeBytes (m.write base x) (base + 1) xs

/-! ### Construction -/

/-- Memory at construction: 0 in every byte, then the machine's font written at 0x050 (70_reset_and_hazards.md R255, R64).
With the default font it lists nothing. -/
def Memory.construct (font : FontTable) : Memory := Memory.writeBytes [] Config.fontBase font.toList

end Sys2Proof.Machine
end

