-- ==== Sys2Proof/Machine/State.lean ====
section
/-! DEFINITION. The state of the block (spec/10_state.md R41), what passes through its ports (R37, R38), the fault log of
60_exceptions.md R243, the model's own bookkeeping, and the state after reset. Plain data. -/

namespace Sys2Proof.Machine

/-! ### Errors and outputs -/

/-- A fatal error's kind with the info the spec records for it (60_exceptions.md R226, R228). Addresses are naturals:
they never wrap (20_memory.md R61). -/
inductive FatalCause where
  /-- A push onto 16 entries (CALL). -/
  | stackOverflow
  /-- A pop from an empty stack (RET). -/
  | stackUnderflow
  /-- An access past 0xFFF; `addr` is the first address above 0xFFF the access needs, or PC for a fetch. -/
  | memoryOutOfRange (addr : Nat)
  /-- A store into the font region; `addr` is the first target byte in it. -/
  | protectedWrite (addr : Nat)
  /-- A key index above 0xF (SKP, SKNP). -/
  | invalidKeyIndex (value : Byte)
deriving DecidableEq, Repr

/-- A fatal error with the address of the instruction that raised it (`instr_addr`, R228). -/
structure FatalError where
  cause : FatalCause
  instrAddr : Word
deriving DecidableEq, Repr

/-- `event`, the second half of what a transaction returns (10_state.md R38, 60_exceptions.md R226). -/
inductive Event where
  /-- The transaction completed. -/
  | ok
  /-- The fetched word is no instruction (R229). -/
  | decodeError (word addr : Word)
  /-- The tick's instruction or fetch raised a fatal error (R230). -/
  | fatal (error : FatalError)
  /-- A tick of a halted core, with the error that halted it (R231). -/
  | halted (error : FatalError)
  /-- `load` was offered more bytes than fit (70_reset_and_hazards.md R257). -/
  | loadTooLarge (length : Nat)
deriving DecidableEq, Repr

/-- `disp`, the first half of what a tick returns: None, Clear or XorSprite (10_state.md R38, 43_display.md R186). -/
inductive DisplayInstr where
  | none
  | clear
  | xorSprite (x y : Byte) (rows : List Byte)
deriving DecidableEq, Repr

/-- `status` (10_state.md R34). -/
inductive Status where
  | running
  | halted (error : FatalError)
deriving DecidableEq, Repr

/-! ### Storage -/

/-- The framebuffer, 32 rows of 64 pixels, true for on (10_state.md R35). -/
abbrev Framebuffer := Vector (Vector Bool 64) 32

/-- A keypad snapshot, true for pressed (10_state.md R32). -/
abbrev Keys := Vector Bool 16

/-! ### The host's transactions -/

/-- What the host does to the block (10_state.md R37). -/
inductive Transaction where
  /-- `tick(keys, rand)` -/
  | tick (keys : Keys) (rand : Byte)
  /-- `timer_tick` -/
  | timerTick
  /-- `load(bytes)` -/
  | load (bytes : List Byte)
  /-- `reset`, with the KEY_WAIT_MODE the host chooses (70_reset_and_hazards.md R259; log entry 7) -/
  | reset (mode : KeyWaitMode)
deriving DecidableEq, Repr

/-! ### Why a step stops -/

/-- Raised by nothing, so it has no constructor: the spec gives every error of the machine an effect (the core is Halted
and says so, 60_exceptions.md R229 to R232), and the model takes that effect as a next state and records it in
`State.faultLog` (R243). Log entry 1. -/
inductive Fault
deriving DecidableEq, Repr

/-- Why a step has no meaning. -/
inductive Refusal where
  /-- Raised by an arm of `exec` for an instruction without a meaning; no arm raises it in this model. Safe. -/
  | notModelled (mnemonic : String)
  /-- Raised by the `load` transaction after the first tick or after an earlier load: "A load at any other time is outside
  this spec: a model refuses it" (70_reset_and_hazards.md R257, 93_implementation_defined.md U17). Safe. -/
  | loadNotAdmitted
deriving DecidableEq, Repr

/-! ### The state -/

/-- Everything the spec gives the machine. -/
structure State where
  /-- V0 to VF (10_state.md R21). -/
  v : Vector Byte 16
  /-- The index register I (R23). -/
  i : Word
  /-- The program counter: the address of the next fetch, and during an instruction fetched at `a`, `a + 2` (R24). -/
  pc : Word
  /-- SP, the depth of the call stack, 0 to 16 (R27). -/
  sp : Fin 17
  /-- The entries of the call stack; those at SP and above are stale (R27). -/
  stack : Vector Word 16
  /-- The delay timer (R30). -/
  dt : Byte
  /-- The sound timer (R30, R31). -/
  st : Byte
  /-- Memory (20_memory.md R60). -/
  mem : Memory
  /-- The framebuffer (R35). -/
  fb : Framebuffer
  /-- `wait.active` (R33). -/
  waitActive : Bool
  /-- `wait.reg` (R33). -/
  waitReg : Reg
  /-- Running or Halted (R34). -/
  status : Status
  /-- Port: the keypad snapshot of the tick being performed (R32, R37). -/
  keys : Keys
  /-- Port: the random byte of the tick being performed (R40). -/
  rand : Byte
  /-- Port: the display instruction the latest tick returned (R38). -/
  disp : DisplayInstr
  /-- Port: the event the latest tick or load returned (R38). -/
  event : Event
  /-- The fault log: every event but Ok, oldest first; no step clears it (60_exceptions.md R243). -/
  faultLog : List Event
  /-- The model's own: a `load` is still admitted (70_reset_and_hazards.md R257). -/
  loadable : Bool
  /-- The model's own: the host's transactions still to come, the next one first; where there is none, the host's choice is
  drawn (log entries 3 and 4). -/
  script : List Transaction
  /-- The model's own: how many ticks have had their inputs drawn. -/
  draws : Nat
  /-- KEY_WAIT_MODE: fixed for the life of a machine, no tick writes it (R36). -/
  keyWaitMode : KeyWaitMode
  /-- FONT_TABLE: the font of this machine, a parameter that no step writes (00_scope.md R6, 20_memory.md R64; log
  entry 9). What is in memory at 0x050 to 0x09F is `mem`'s. -/
  font : FontTable
deriving DecidableEq, Repr

/-- The state construction leaves, with the KEY_WAIT_MODE the host chooses and the machine's FONT_TABLE (10_state.md R41,
70_reset_and_hazards.md R255). -/
def State.construct (mode : KeyWaitMode) (font : FontTable) : State where
  v := Vector.replicate 16 0
  i := 0
  pc := 0x200
  sp := 0
  stack := Vector.replicate 16 0
  dt := 0
  st := 0
  mem := Memory.construct font
  fb := Vector.replicate 32 (Vector.replicate 64 false)
  waitActive := false
  waitReg := 0
  status := .running
  keys := Vector.replicate 16 false
  rand := 0
  disp := .none
  event := .ok
  faultLog := []
  loadable := true
  script := []
  draws := 0
  keyWaitMode := mode
  font := font

/-- The state after reset, KEY_WAIT_MODE and FONT_TABLE at their defaults (10_state.md R36, R41, 20_memory.md R64). Memory
lists nothing. -/
def State.reset : State := State.construct .asyncLatch defaultFont

/-! ### One named update for each field that is written -/

namespace State
variable (s : State)

def withV (x : Vector Byte 16) : State := { s with v := x }
def withI (x : Word) : State := { s with i := x }
def withPc (x : Word) : State := { s with pc := x }
def withStack (depth : Fin 17) (x : Vector Word 16) : State := { s with sp := depth, stack := x }
def withTimers (d t : Byte) : State := { s with dt := d, st := t }
def withMem (x : Memory) : State := { s with mem := x }
def withFb (x : Framebuffer) : State := { s with fb := x }
def withWait (active : Bool) (r : Reg) : State := { s with waitActive := active, waitReg := r }
def withStatus (x : Status) : State := { s with status := x }
def withInputs (k : Keys) (r : Byte) : State := { s with keys := k, rand := r }
def withDisp (x : DisplayInstr) : State := { s with disp := x }
/-- The event is returned and, unless it is Ok, added to the fault log (60_exceptions.md R243). -/
def withEvent (x : Event) : State :=
  { s with event := x, faultLog := if x = .ok then s.faultLog else s.faultLog ++ [x] }
def withLoadable (x : Bool) : State := { s with loadable := x }
def withScript (x : List Transaction) : State := { s with script := x }
def withDraws (x : Nat) : State := { s with draws := x }

end State

end Sys2Proof.Machine
end

