-- ==== Sys2Proof/Machine/Ops.lean ====
section
/-! DEFINITION. The shared operations: register access, raising an error, the call stack, the skip, the keypad scan, the key
latch, the fetch and the timers. Each cites the rule of spec/ it follows. -/

namespace Sys2Proof.Machine

/-- What a meaning and a step answer. -/
abbrev Outcome := Host.Outcome State Fault Refusal

/-! ### Registers (10_state.md R21) -/

/-- `V[r]`. -/
def State.reg (s : State) (r : Reg) : Byte := s.v.get r

/-- `V[r] <- x`. -/
def State.setReg (s : State) (r : Reg) (x : Byte) : State := s.withV (s.v.set r.val x r.isLt)

/-- A result and then the flag: `V[r] <- x`, and VF last, so that with r = F VF holds the flag (00_scope.md R10,
41_alu.md R130). -/
def State.setRegFlag (s : State) (r : Reg) (x flag : Byte) : State := (s.setReg r x).setReg VF flag

/-- V0 to Vx, the registers Fx55 stores (42_index_memory.md R165). -/
def State.regsThrough (s : State) (x : Reg) : List Byte := s.v.toList.take (x.val + 1)

/-- V0 to Vx take the bytes at `base` onwards; the registers above x stay (42_index_memory.md R166). -/
def State.loadRegsThrough (s : State) (x : Reg) (base : Nat) : State :=
  s.withV (Vector.ofFn fun r : Fin 16 => if r ≤ x then s.mem.read (base + r.val) else s.v.get r)

/-! ### Errors (60_exceptions.md) -/

/-- The spec's code of a fatal kind (R226). -/
def FatalCause.code : FatalCause → Nat
  | .stackOverflow => 2
  | .stackUnderflow => 3
  | .memoryOutOfRange _ => 4
  | .protectedWrite _ => 5
  | .invalidKeyIndex _ => 6

/-- The code of the kind an event reports (R226); a Halted event reports the kind that halted the core (R231), and Ok none. -/
def Event.code : Event → Option Nat
  | .ok => none
  | .decodeError _ _ => some 1
  | .fatal e => some e.cause.code
  | .halted e => some e.cause.code
  | .loadTooLarge _ => some 7

/-- `raise Fatal(cause)` of the instruction or fetch at `instrAddr` (R230): the core is Halted with the cause, the tick
returns no display instruction and the event Fatal, which goes into the fault log. Nothing else changes (R232). -/
def State.raiseFatalAt (s : State) (instrAddr : Word) (cause : FatalCause) : State :=
  ((s.withStatus (.halted ⟨cause, instrAddr⟩)).withDisp .none).withEvent (.fatal ⟨cause, instrAddr⟩)

/-- `raise Fatal(cause)` inside an instruction. DEDUCED from 10_state.md R24: PC is the instruction's address plus 2 while it
executes (log entry 11). -/
def State.raiseFatal (s : State) (cause : FatalCause) : State := s.raiseFatalAt (s.pc - 2) cause

/-- `raise DecodeError(word, addr)` (R229): reported and skipped. PC has already moved past the word. -/
def State.raiseDecodeError (s : State) (word addr : Word) : State :=
  (s.withDisp .none).withEvent (.decodeError word addr)

/-- The check of a read of `n` bytes at `base` (20_memory.md R69): the error it raises, if any. -/
def checkRead (base n : Nat) : Option FatalCause := (firstOutOfRange base n).map .memoryOutOfRange

/-- The check of a write of `n` bytes at `base`: range first, then the font region (20_memory.md R62, R69). -/
def checkWrite (base n : Nat) : Option FatalCause :=
  match checkRead base n with
  | some c => some c
  | none => (firstProtected base n).map .protectedWrite

/-- An instruction whose checks all come before its writes (00_scope.md R10): the error its checks found, or the state `t`
its writes make. -/
def State.checked (s : State) (c : Option FatalCause) (t : State) : State :=
  match c with
  | some cause => s.raiseFatal cause
  | none => t

/-! ### The call stack (10_state.md R29) -/

/-- `push(x)`, or `none` for StackOverflow. -/
def State.push (s : State) (x : Word) : Option State :=
  if h : s.sp.val < 16 then some (s.withStack ⟨s.sp.val + 1, by omega⟩ (s.stack.set s.sp.val x h)) else none

/-- `pop()`: the popped entry and the state after it, or `none` for StackUnderflow. -/
def State.pop (s : State) : Option (Word × State) :=
  match s.sp with
  | ⟨0, _⟩ => none
  | ⟨k + 1, h⟩ => some (s.stack[k]'(by omega), s.withStack ⟨k, by omega⟩ s.stack)

/-! ### Control flow -/

/-- Skip the next instruction if `c`: `PC <- PC + 2` (40_control_flow.md R110). -/
def State.skipIf (s : State) (c : Bool) : State := if c then s.withPc (s.pc + 2) else s

/-! ### Keypad (44_keypad_timers.md) -/

/-- `lowest_pressed(keys)`: the least pressed key (00_scope.md R9). -/
def lowestPressed (keys : Keys) : Option Reg := (List.finRange 16).find? fun k => keys.get k

/-- The index of a key as a byte. -/
def keyByte (k : Reg) : Byte := BitVec.ofNat 8 k.val

/-- The key latch, step (1) of every tick of a running core (R208). -/
def State.latch (s : State) : State :=
  if s.waitActive then
    match lowestPressed s.keys with
    | some k => (s.setReg s.waitReg (keyByte k)).withWait false s.waitReg
    | none => s
  else s

/-! ### Timers (44_keypad_timers.md R209) -/

/-- One decrement: a timer at 0 stays at 0. -/
def countDown (t : Byte) : Byte := if t = 0 then 0 else t - 1

/-- `k` timer ticks one after the other. -/
def State.timerTicks (s : State) (k : Nat) : State := s.withTimers (countDown^[k] s.dt) (countDown^[k] s.st)

/-! ### Fetch (20_memory.md R66) -/

/-- The fetch at `a` needs a byte outside memory. -/
def fetchOutOfRange (a : Word) : Bool := Config.memSize ≤ a.toNat + 1

/-- `Fetch(a)`: the big-endian word at `a`. -/
def State.fetchWord (s : State) : Word :=
  wordOfBytes (s.mem.read s.pc.toNat) (s.mem.read (s.pc.toNat + 1))

end Sys2Proof.Machine
end

