-- ==== Sys2Proof/Machine/Flags.lean ====
section
/-! DEFINITION. Every value that is written to VF as a flag (spec/10_state.md R22, 41_alu.md R137 to R141,
43_display.md R184). -/

namespace Sys2Proof.Machine

/-- A flag as VF holds it: 1 or 0. -/
def flagByte (b : Bool) : Byte := if b then 1 else 0

/-- The carry of `p + q`: the exact sum is above 255 (R137). -/
def carryFlag (p q : Byte) : Byte := flagByte (255 < p.toNat + q.toNat)

/-- NOT borrow of `p - q`: `p >= q` before the subtraction (R138, R140). -/
def noBorrowFlag (p q : Byte) : Byte := flagByte (q.toNat ≤ p.toNat)

/-- The bit a right shift drops: bit 0 before the shift (R139). -/
def shiftRightFlag (p : Byte) : Byte := flagByte (p.getLsbD 0)

/-- The bit a left shift drops: bit 7 before the shift (R141). -/
def shiftLeftFlag (p : Byte) : Byte := flagByte (p.getLsbD 7)

/-- The aggregate collision of a sprite (R184). -/
def collisionFlag (hit : Bool) : Byte := flagByte hit

end Sys2Proof.Machine
end

