-- ==== Sys2Proof/Machine/Operands.lean ====
section
/-! DEFINITION. Operand forms: how an instruction's fields become values (spec/30_encoding.md R88, R89, 42_index_memory.md
R163, 44_keypad_timers.md R200). A register operand is `State.reg`, a byte immediate is used as it stands. -/

namespace Sys2Proof.Machine

/-- `zext_16(nnn)`: an address immediate as a u16 (R88). -/
def addrOf (nnn : BitVec 12) : Word := nnn.setWidth 16

/-- `zext_16(x)`: a byte as a u16 (00_scope.md R8). -/
def widen (x : Byte) : Word := x.setWidth 16

/-- The address of the glyph of the low nibble of `x`: `0x050 + 5 * (x & 0x0F)` (R163). -/
def glyphAddr (x : Byte) : Word := BitVec.ofNat 16 (Config.fontBase + Config.glyphBytes * (x.toNat % 16))

/-- The key a register value names: `none` above 15, where it names no key (R200). -/
def keyOf (x : Byte) : Option Reg := if h : x.toNat < 16 then some ⟨x.toNat, h⟩ else none

/-- The decimal digits of a byte, hundreds first (R164). -/
def decimalDigits (x : Byte) : List Byte :=
  [BitVec.ofNat 8 (x.toNat / 100), BitVec.ofNat 8 (x.toNat / 10 % 10), BitVec.ofNat 8 (x.toNat % 10)]

end Sys2Proof.Machine
end

