-- ==== Sys2Proof/Machine/Alu.lean ====
section
/-! DEFINITION. Register arithmetic, logic, shifts and random (spec/41_alu.md). PC has already advanced; no instruction here
raises an error, and all operands are read before any write (R130). -/

namespace Sys2Proof.Machine

/-- LD Vx, byte (R131). -/
def execLdImm (x : Reg) (kk : Byte) (s : State) : Outcome := .next (s.setReg x kk)

/-- ADD Vx, byte: modulo 256, no flag (R132). -/
def execAddImm (x : Reg) (kk : Byte) (s : State) : Outcome := .next (s.setReg x (s.reg x + kk))

/-- LD Vx, Vy (R133). -/
def execLdReg (x y : Reg) (s : State) : Outcome := .next (s.setReg x (s.reg y))

/-- OR Vx, Vy: VF is not reset (R134). -/
def execOr (x y : Reg) (s : State) : Outcome := .next (s.setReg x (s.reg x ||| s.reg y))

/-- AND Vx, Vy (R135). -/
def execAnd (x y : Reg) (s : State) : Outcome := .next (s.setReg x (s.reg x &&& s.reg y))

/-- XOR Vx, Vy (R136). -/
def execXor (x y : Reg) (s : State) : Outcome := .next (s.setReg x (s.reg x ^^^ s.reg y))

/-- ADD Vx, Vy: the low byte of the sum, VF the carry (R137). -/
def execAddReg (x y : Reg) (s : State) : Outcome :=
  .next (s.setRegFlag x (s.reg x + s.reg y) (carryFlag (s.reg x) (s.reg y)))

/-- SUB Vx, Vy: VF is NOT borrow (R138). -/
def execSub (x y : Reg) (s : State) : Outcome :=
  .next (s.setRegFlag x (s.reg x - s.reg y) (noBorrowFlag (s.reg x) (s.reg y)))

/-- SHR Vx: Vx, not Vy, shifts; VF is the old bit 0 (R139). -/
def execShr (x _y : Reg) (s : State) : Outcome :=
  .next (s.setRegFlag x (s.reg x >>> 1) (shiftRightFlag (s.reg x)))

/-- SUBN Vx, Vy: the reverse subtraction (R140). -/
def execSubn (x y : Reg) (s : State) : Outcome :=
  .next (s.setRegFlag x (s.reg y - s.reg x) (noBorrowFlag (s.reg y) (s.reg x)))

/-- SHL Vx: Vx, not Vy, shifts; VF is the old bit 7 (R141). -/
def execShl (x _y : Reg) (s : State) : Outcome :=
  .next (s.setRegFlag x (s.reg x <<< 1) (shiftLeftFlag (s.reg x)))

/-- RND Vx, byte: the tick's random byte under the mask (R142). -/
def execRnd (x : Reg) (kk : Byte) (s : State) : Outcome := .next (s.setReg x (s.rand &&& kk))

end Sys2Proof.Machine
end

