-- ==== Sys2Proof/Machine/ControlFlow.lean ====
section
/-! DEFINITION. Return, jumps, call and skips (spec/40_control_flow.md). PC is the instruction's address plus 2 when a
meaning starts. -/

namespace Sys2Proof.Machine

/-- RET: pop into PC, or StackUnderflow (R111). -/
def execRet (s : State) : Outcome :=
  .next (match s.pop with
    | some (target, t) => t.withPc target
    | none => s.raiseFatal .stackUnderflow)

/-- JP addr (R112). -/
def execJp (nnn : BitVec 12) (s : State) : Outcome := .next (s.withPc (addrOf nnn))

/-- CALL addr: push the already-advanced PC and jump, or StackOverflow (R113). -/
def execCall (nnn : BitVec 12) (s : State) : Outcome :=
  .next (match s.push s.pc with
    | some t => t.withPc (addrOf nnn)
    | none => s.raiseFatal .stackOverflow)

/-- SE Vx, byte (R114). -/
def execSeImm (x : Reg) (kk : Byte) (s : State) : Outcome := .next (s.skipIf (s.reg x == kk))

/-- SNE Vx, byte (R115). -/
def execSneImm (x : Reg) (kk : Byte) (s : State) : Outcome := .next (s.skipIf (s.reg x != kk))

/-- SE Vx, Vy (R116). -/
def execSeReg (x y : Reg) (s : State) : Outcome := .next (s.skipIf (s.reg x == s.reg y))

/-- SNE Vx, Vy (R117). -/
def execSneReg (x y : Reg) (s : State) : Outcome := .next (s.skipIf (s.reg x != s.reg y))

/-- JP V0, addr: always V0; a target past memory is no error yet (R118). -/
def execJpV0 (nnn : BitVec 12) (s : State) : Outcome := .next (s.withPc (widen (s.reg V0) + addrOf nnn))

end Sys2Proof.Machine
end

