-- ==== Sys2Proof/Machine/Framebuffer.lean ====
section
/-! DEFINITION. The framebuffer and its XOR-sprite operation with the clip-and-discard edge policy
(spec/43_display.md R180, R183). -/

namespace Sys2Proof.Machine

/-- `fb[c, r]`; no pixel outside the grid is on (10_state.md R35). -/
def Framebuffer.pixel (fb : Framebuffer) (c r : Nat) : Bool :=
  if h : c < 64 ∧ r < 32 then (fb[r]'h.2)[c]'h.1 else false

/-- `fb[c, r] <- not fb[c, r]`; outside the grid nothing changes (R183: discarded). -/
def Framebuffer.toggle (fb : Framebuffer) (c r : Nat) : Framebuffer :=
  if h : c < 64 ∧ r < 32 then fb.set r ((fb[r]'h.2).set c (!(fb[r]'h.2)[c]'h.1) h.1) h.2 else fb

/-- Every pixel off (R181). -/
def Framebuffer.blank : Framebuffer := Vector.replicate 32 (Vector.replicate 64 false)

/-- The bit of a sprite row at column offset `c`: bit 7 is the leftmost column (R180). -/
def spriteBit (row : Byte) (c : Nat) : Bool := row.getLsbD (7 - c)

/-- The innermost step of R183: the bit of `row` at column offset `c`, drawn with the sprite's corner at column `cx` and
this row at row `py` of the grid. The pair is the framebuffer so far and `hit` so far. -/
def xorPixel (cx py : Nat) (row : Byte) (acc : Framebuffer × Bool) (c : Nat) : Framebuffer × Bool :=
  if spriteBit row c && (cx + c ≤ 63 && py ≤ 31) then
    (acc.1.toggle (cx + c) py, acc.2 || acc.1.pixel (cx + c) py)
  else acc

/-- The inner loop of R183: one sprite row, `for c in 0..7`. -/
def xorRow (cx py : Nat) (row : Byte) (acc : Framebuffer × Bool) : Framebuffer × Bool :=
  (List.range 8).foldl (xorPixel cx py row) acc

/-- The outer loop of R183: the first row of the list at row `py` of the grid, each later row one below. -/
def xorRows (cx : Nat) : Nat → List Byte → Framebuffer × Bool → Framebuffer × Bool
  | _, [], acc => acc
  | py, row :: rows, acc => xorRows cx (py + 1) rows (xorRow cx py row acc)

/-- `XorSprite(cx, cy, rows)` (R183): the framebuffer after it, and the aggregate collision (R184). -/
def Framebuffer.xorSprite (fb : Framebuffer) (cx cy : Nat) (rows : List Byte) : Framebuffer × Bool :=
  xorRows cx cy rows (fb, false)

end Sys2Proof.Machine
end

