-- ==== Sys2Proof/Machine/Display.lean ====
section
/-! DEFINITION. The display instructions (spec/43_display.md): the core applies each to its own framebuffer in the same tick
and returns it as `disp`. -/

namespace Sys2Proof.Machine

/-- CLS: every pixel off, emit Clear (R181). -/
def execCls (s : State) : Outcome := .next ((s.withFb .blank).withDisp .clear)

/-- The effect of DRW once its read is known to be in range: the coordinates are read before VF is written, the sprite is
composited, VF is the aggregate collision, and XorSprite is emitted with the raw coordinates and rows (R182, R186). -/
def State.drawSprite (s : State) (cx cy : Byte) (rows : List Byte) : State :=
  (((s.withFb (s.fb.xorSprite cx.toNat cy.toNat rows).1).setReg VF
    (collisionFlag (s.fb.xorSprite cx.toNat cy.toNat rows).2)).withDisp (.xorSprite cx cy rows))

/-- DRW Vx, Vy, nibble (R182). -/
def execDrw (x y : Reg) (n : Nat) (s : State) : Outcome :=
  .next (s.checked (checkRead s.i.toNat n)
    (s.drawSprite (s.reg x) (s.reg y) (s.mem.readBytes s.i.toNat n)))

end Sys2Proof.Machine
end

