-- ==== Sys2Proof/Machine/IndexMemory.lean ====
section
/-! DEFINITION. The index register and memory transfer (spec/42_index_memory.md). Accesses are at I + j, a natural that does
not wrap, and are checked whole before any byte moves (R160). -/

namespace Sys2Proof.Machine

/-- LD I, addr (R161). -/
def execLdI (nnn : BitVec 12) (s : State) : Outcome := .next (s.withI (addrOf nnn))

/-- ADD I, Vx: modulo 65536, VF unchanged (R162). -/
def execAddIVx (x : Reg) (s : State) : Outcome := .next (s.withI (s.i + widen (s.reg x)))

/-- LD F, Vx: the glyph address of the low nibble (R163). -/
def execLdFVx (x : Reg) (s : State) : Outcome := .next (s.withI (glyphAddr (s.reg x)))

/-- LD B, Vx: hundreds, tens, units at I, I+1, I+2 (R164). -/
def execLdBVx (x : Reg) (s : State) : Outcome :=
  .next (s.checked (checkWrite s.i.toNat 3)
    (s.withMem (s.mem.writeBytes s.i.toNat (decimalDigits (s.reg x)))))

/-- LD [I], Vx: store V0 to Vx, I unchanged (R165). -/
def execLdMemVx (x : Reg) (s : State) : Outcome :=
  .next (s.checked (checkWrite s.i.toNat (x.val + 1)) (s.withMem (s.mem.writeBytes s.i.toNat (s.regsThrough x))))

/-- LD Vx, [I]: load V0 to Vx, I unchanged; the font may be read (R166). -/
def execLdVxMem (x : Reg) (s : State) : Outcome :=
  .next (s.checked (checkRead s.i.toNat (x.val + 1)) (s.loadRegsThrough x s.i.toNat))

end Sys2Proof.Machine
end

