-- ==== Sys2Proof/Machine/KeypadTimers.lean ====
section
/-! DEFINITION. The keypad and timer instructions (spec/44_keypad_timers.md). `keys` is the tick's snapshot. -/

namespace Sys2Proof.Machine

/-- SKP Vx: skip if key Vx is pressed, InvalidKeyIndex above 15 (R200, R201). -/
def execSkp (x : Reg) (s : State) : Outcome :=
  .next (match keyOf (s.reg x) with
    | some k => s.skipIf (s.keys.get k)
    | none => s.raiseFatal (.invalidKeyIndex (s.reg x)))

/-- SKNP Vx: skip if key Vx is not pressed, InvalidKeyIndex above 15 (R200, R202). -/
def execSknp (x : Reg) (s : State) : Outcome :=
  .next (match keyOf (s.reg x) with
    | some k => s.skipIf (!s.keys.get k)
    | none => s.raiseFatal (.invalidKeyIndex (s.reg x)))

/-- LD Vx, DT (R203). -/
def execLdVxDt (x : Reg) (s : State) : Outcome := .next (s.setReg x s.dt)

/-- LD Vx, K: the lowest pressed key at once; with none pressed, AsyncLatch records the pending register (R206) and Blocking
moves PC back so that the word is fetched again (R207). -/
def execLdVxK (x : Reg) (s : State) : Outcome :=
  .next (match lowestPressed s.keys with
    | some k => s.setReg x (keyByte k)
    | none =>
      match s.keyWaitMode with
      | .asyncLatch => s.withWait true x
      | .blocking => s.withPc (s.pc - 2))

/-- LD DT, Vx (R204). -/
def execLdDtVx (x : Reg) (s : State) : Outcome := .next (s.withTimers (s.reg x) s.st)

/-- LD ST, Vx (R205). -/
def execLdStVx (x : Reg) (s : State) : Outcome := .next (s.withTimers s.dt (s.reg x))

end Sys2Proof.Machine
end

