-- ==== Sys2Proof/Machine/Tick.lean ====
section
/-! DEFINITION. The tick (spec/30_encoding.md R94) and the host's other transactions (10_state.md R37): timer tick
(44_keypad_timers.md R209), load (70_reset_and_hazards.md R257) and reset (R256). -/

namespace Sys2Proof.Machine

/-- What a tick starts from: its inputs at the ports, no display instruction yet, the event Ok until something else happens,
and no `load` admitted any more. -/
def State.beginTick (s : State) (keys : Keys) (rand : Byte) : State :=
  (((s.withInputs keys rand).withDisp .none).withEvent .ok).withLoadable false

/-- Steps (2) to (4) of the tick: fetch, decode and execute. -/
def fetchAndExec (s : State) : Outcome :=
  if fetchOutOfRange s.pc then .next (s.raiseFatalAt s.pc (.memoryOutOfRange s.pc.toNat))
  else
    match decodeWord s.fetchWord with
    | none => .next ((s.withPc (s.pc + 2)).raiseDecodeError s.fetchWord s.pc)
    | some i => exec i (s.withPc (s.pc + 2))

/-- `tick(keys, rand)` (R94). A halted core changes nothing and returns Halted (R95). -/
def tick (keys : Keys) (rand : Byte) (s : State) : Outcome :=
  match s.status with
  | .halted e => .next (((s.withInputs keys rand).withDisp .none).withEvent (.halted e))
  | .running => fetchAndExec (s.beginTick keys rand).latch

/-- `load(bytes)` (R257): admitted once, before the first tick. Too many bytes: LoadTooLarge, nothing written. -/
def load (bytes : List Byte) (s : State) : Outcome :=
  if s.loadable then
    if bytes.length ≤ Config.programMax then
      .next (((s.withMem (s.mem.writeBytes Config.programBase bytes)).withEvent .ok).withLoadable false)
    else .next ((s.withEvent (.loadTooLarge bytes.length)).withLoadable false)
  else .refused .loadNotAdmitted

/-- `reset` (R256): the same as construction, with the font the machine has. What is not the block's own stays: the fault log, which no step clears
(60_exceptions.md R243), the host's script and the count of draws (log entry 2). -/
def State.resetTo (s : State) (mode : KeyWaitMode) : State :=
  { State.construct mode s.font with faultLog := s.faultLog, script := s.script, draws := s.draws }

/-- One transaction of the host. -/
def perform (t : Transaction) (s : State) : Outcome :=
  match t with
  | .tick keys rand => tick keys rand s
  | .timerTick => .next (s.timerTicks 1)
  | .load bytes => load bytes s
  | .reset mode => .next (s.resetTo mode)

/-- Where no script says what the host does: a drawn number of timer ticks, then a tick with a drawn snapshot and a drawn
random byte (10_state.md R40, 44_keypad_timers.md R210; log entry 4). -/
def drawnTick (s : State) : Outcome :=
  tick (Config.drawKeys s.draws) (Config.drawRand s.draws)
    ((s.timerTicks (Config.drawTimerTicks s.draws)).withDraws (s.draws + 1))

/-- The host's next transaction. -/
def nextTransaction (s : State) : Outcome :=
  match s.script with
  | t :: rest => perform t (s.withScript rest)
  | [] => drawnTick s

/-- The transaction is a tick. -/
def Transaction.isTick : Transaction → Bool
  | .tick _ _ => true
  | .timerTick | .load _ | .reset _ => false

/-- The address the next tick fetches from if it can be fetched from, else the entry point 0x200. -/
def State.fetchAddr (s : State) : Word :=
  if fetchOutOfRange s.pc then BitVec.ofNat 16 Config.programBase else s.pc

/-- The bytes stored where the next tick fetches, the core running, and the host's next transaction a tick: nothing else
changes, and none of these three changes anything where the machine is already so (log entry 13). -/
def State.placeInstruction (s : State) (bytes : List Byte) : State :=
  (((s.withPc s.fetchAddr).withMem (s.mem.writeBytes s.fetchAddr.toNat bytes)).withStatus .running).withScript
    (s.script.dropWhile fun t => !t.isTick)

end Sys2Proof.Machine
end

