-- ==== Sys2Proof/Machine/Step.lean ====
section
/-! DEFINITION. One step of the machine is one transaction of the host, and a program's first word is placed where the next
tick fetches. -/

namespace Sys2Proof.Machine

/-- One step: the host's next transaction (spec/10_state.md R20, R37). -/
def step (s : State) : Host.Outcome State Fault Refusal := nextTransaction s

/-- `s` with the instruction of the table's word `w` of `nbits` bits stored where `step` fetches next. -/
def State.withFetchWord (s : State) (nbits w : Nat) : State :=
  s.placeInstruction (bytesOfWord (BitVec.ofNat 16 (w % 2 ^ nbits)))

end Sys2Proof.Machine
end

