-- ==== Sys2Proof/Safety.lean ====
section
/-! DEFINITION. What claims are stated in: a safe run, the launch state of a program, the end of a run, and the invariant of
the machine (spec/60_exceptions.md R243, 70_reset_and_hazards.md R260, R267). -/

namespace Sys2Proof.Machine

/-- No event other than Ok has happened (R243): a decode error, a fatal error and a tick of a halted core all count as
faults, so nothing is safe about a stopped machine. -/
def State.Safe (s : State) : Prop := s.faultLog = []

/-- `k` steps are taken, none is refused, and no event other than Ok happens in them. -/
def SafeRun (k : Nat) (s : State) : Prop := ∃ t, core.run k s = .next t ∧ t.Safe

/-- The launch state of a run (R260): the reset state in the chosen mode and with the machine's font, after one successful
load of `bytes`, with the host's transactions `rest` to come. A load that does not succeed launches nothing
(93_implementation_defined.md U11). -/
def State.launch (mode : KeyWaitMode) (font : FontTable) (bytes : List Byte) (rest : List Transaction) : Option State :=
  match load bytes ((State.construct mode font).withScript rest) with
  | .next s => if s.event = .ok then some s else none
  | .fault _ => none
  | .refused _ => none

/-- The core is in an idle loop at `a`: the next fetch is of a `1nnn` whose target is its own address (R267). -/
def State.IdleAt (s : State) (a : BitVec 12) : Prop :=
  s.status = .running ∧ s.pc = addrOf a ∧ s.fetchWord = encodeWord (.jp a)

/-! ### Which instruction raises which error, in closed form (60_exceptions.md R227, R228) -/

/-- A read of `n` bytes at `base` that leaves memory, with the first address above 0xFFF. -/
def rangeError (base n : Nat) : Option FatalCause :=
  if n ≠ 0 ∧ 0xFFF < base + n - 1 then some (.memoryOutOfRange (max base 0x1000)) else none

/-- A write of `n` bytes at `base` that leaves memory or meets the font region, with the first such address. -/
def storeError (base n : Nat) : Option FatalCause :=
  if 0xFFF < base + n - 1 then some (.memoryOutOfRange (max base 0x1000))
  else if base ≤ 0x09F ∧ 0x050 ≤ base + n - 1 then some (.protectedWrite (max base 0x050))
  else none

/-- A key index that names no key. -/
def keyError (x : Byte) : Option FatalCause := if 15 < x.toNat then some (.invalidKeyIndex x) else none

/-- The error an instruction raises, if any (R227). -/
def errorOf : Instr → State → Option FatalCause
  | .call _, s => if s.sp.val = 16 then some .stackOverflow else none
  | .ret, s => if s.sp.val = 0 then some .stackUnderflow else none
  | .drw _ _ n, s => rangeError s.i.toNat n
  | .ldBVx _, s => storeError s.i.toNat 3
  | .ldMemVx x, s => storeError s.i.toNat (x.val + 1)
  | .ldVxMem x, s => rangeError s.i.toNat (x.val + 1)
  | .skp x, s => keyError (s.reg x)
  | .sknp x, s => keyError (s.reg x)
  | .cls, _ | .jp _, _ | .seImm _ _, _ | .sneImm _ _, _ | .seReg _ _, _ | .ldImm _ _, _ | .addImm _ _, _
  | .ldReg _ _, _ | .or _ _, _ | .and _ _, _ | .xor _ _, _ | .addReg _ _, _ | .sub _ _, _ | .shr _ _, _
  | .subn _ _, _ | .shl _ _, _ | .sneReg _ _, _ | .ldI _, _ | .jpV0 _, _ | .rnd _ _, _ | .ldVxDt _, _
  | .ldVxK _, _ | .ldDtVx _, _ | .ldStVx _, _ | .addIVx _, _ | .ldFVx _, _ => none

/-! ### Which registers an instruction may write (10_state.md R21, R22) -/

/-- The register is the instruction's destination, one of Fx65's block, or VF where the instruction writes VF as a flag. -/
def writesReg : Instr → Reg → Bool
  | .ldImm x _, r | .addImm x _, r | .ldReg x _, r | .or x _, r | .and x _, r | .xor x _, r | .rnd x _, r
  | .ldVxDt x, r | .ldVxK x, r => r = x
  | .addReg x _, r | .sub x _, r | .shr x _, r | .subn x _, r | .shl x _, r => r = x || r = VF
  | .drw _ _ _, r => r = VF
  | .ldVxMem x, r => r ≤ x
  | .cls, _ | .ret, _ | .jp _, _ | .call _, _ | .seImm _ _, _ | .sneImm _ _, _ | .seReg _ _, _ | .sneReg _ _, _
  | .ldI _, _ | .jpV0 _, _ | .skp _, _ | .sknp _, _ | .ldDtVx _, _ | .ldStVx _, _ | .addIVx _, _ | .ldFVx _, _
  | .ldBVx _, _ | .ldMemVx _, _ => false

/-! ### A sprite on the grid, pixel by pixel (43_display.md R180, R183) -/

/-- The sprite `rows` with its corner at column `cx` and row `cy` has a set bit over the pixel at column `c`, row `r`. -/
def spriteCovers (cx cy : Nat) (rows : List Byte) (c r : Nat) : Bool :=
  cx ≤ c && c ≤ cx + 7 && cy ≤ r && (rows.getD (r - cy) 0).getLsbD (7 - (c - cx))

/-! ### The state a tick executes from -/

/-- The state a tick of a running core fetches from: its inputs at the ports, its outputs cleared, no load admitted any more,
and then the key latch (30_encoding.md R94 step (1)). -/
def State.tickStart (s : State) (keys : Keys) (rand : Byte) (rest : List Transaction) : State :=
  State.latch { s with script := rest, keys := keys, rand := rand, disp := .none, event := .ok, loadable := false }

/-- The transaction at the head of the script is no reset. -/
def State.NoReset (s : State) : Prop := ∀ mode rest, s.script ≠ .reset mode :: rest

/-- What every step keeps. -/
structure State.Inv (s : State) : Prop where
  /-- Memory is in canonical form, inside the 4096 bytes (20_memory.md R60). -/
  memWf : s.mem.wf = true
  /-- The font region holds the machine's font table (20_memory.md R64, R65). -/
  fontIntact : ∀ j, (h : j < 80) → s.mem.read (0x050 + j) = s.font[j]
  /-- PC is at most 0x10FE, so no reachable PC arithmetic wraps (10_state.md R25). -/
  pcBound : s.pc.toNat ≤ 0x10FE
  /-- The stack holds only values pushed by 2nnn, at most 0x1000 (40_control_flow.md R111). -/
  stackBound : ∀ k, (h : k < 16) → k < s.sp.val → (s.stack[k]'h).toNat ≤ 0x1000
  /-- In Blocking mode the wait state is never set (10_state.md R33). -/
  blockingNeverWaits : s.keyWaitMode = .blocking → s.waitActive = false
  /-- A core that is halted has its fatal error in the fault log (60_exceptions.md R230, R243). -/
  haltedLogged : ∀ e, s.status = .halted e → .fatal e ∈ s.faultLog
  /-- A halted core admits no load: it has ticked (70_reset_and_hazards.md R257). -/
  haltedNotLoadable : ∀ e, s.status = .halted e → s.loadable = false

end Sys2Proof.Machine
end

