-- ==== Sys2Proof/Certificates/Slice0/Obligations.lean ====
section
/-! DEFINITION. The statements for the provers, each a rule of spec/ or derived from rules. A frame is written as an equation
of states: `t = { s with v := t.v }` says that every field but `v` is as it was. -/

open Sys2Proof Sys2Proof.Machine

/-! ### Encoding -/

/-- Words written out from the spec's encodings decode to the instructions they stand for, one or more of each family. -/
def Obligations.WordsOfEachFamilyDecode : Prop :=
  decode [0x22, 0x04] = .instr (.call 0x204) [] ∧ decode [0x00, 0xEE] = .instr (.ret) [] ∧
  decode [0xBF, 0xFF] = .instr (.jpV0 0xFFF) [] ∧ decode [0x33, 0x42] = .instr (.seImm 3 0x42) [] ∧
  decode [0x8A, 0xB4] = .instr (.addReg 0xA 0xB) [] ∧ decode [0x72, 0x20] = .instr (.addImm 2 0x20) [] ∧
  decode [0xA3, 0x00] = .instr (.ldI 0x300) [] ∧ decode [0xF2, 0x65] = .instr (.ldVxMem 2) [] ∧
  decode [0xD1, 0x25] = .instr (.drw 1 2 5) [] ∧ decode [0xE1, 0xA1] = .instr (.sknp 1) [] ∧
  decode [0xF5, 0x0A, 0x65] = .instr (.ldVxK 5) [0x65] ∧ decode [0x01, 0x23] = .rejected (.unrecognized 0x0123)

/-- Every well-formed instruction, with every operand at every value, is read back from its bytes, and the bytes after it
are left over. -/
def Obligations.DecodeOfEncode : Prop :=
  ∀ (i : Instr) (rest : List Byte), i.wellFormed = true → decode (encode i ++ rest) = .instr i rest

/-- Each word has one meaning: an instruction decoded from a word is well-formed and encodes to that word, ignored fields
included. -/
def Obligations.EncodeOfDecode : Prop :=
  ∀ (w : Word) (i : Instr), decodeWord w = some i → encodeWord i = w ∧ i.wellFormed = true

/-- R90: of the 34 rows of the opcode map a word matches at most one, and it decodes to that row's instruction, with the
operands in the fields the pattern's letters name; where it matches none it decodes to nothing. -/
def Obligations.WordDecodesToTheOneRowItMatches : Prop :=
  opcodeMap.length = 34 ∧
  ∀ w : Word, (opcodeMap.filter (·.matchesWord w)).map (·.instr w) = (decodeWord w).toList

/-- The decode-error space, counted for each top nibble: 21582 words in all (R91; counts the spec derives from R90). -/
def Obligations.DecodeErrorSpaceCounted : Prop :=
  ((List.range 16).map fun op =>
      (List.range 4096).countP fun k => (decodeWord (BitVec.ofNat 16 (op * 4096 + k))).isNone) =
    [4094, 0, 0, 0, 0, 3840, 0, 0, 1792, 3840, 0, 0, 0, 0, 4064, 3952]

/-! ### Reset -/

/-- Every element of R41 at its reset value, memory by its bytes. The spec's own decisions D12, D15, D26 and D27 give the
values of memory outside the font, the wait state, the status and the stack entries, and the 80 default font bytes are
general knowledge (log entry 9). -/
def Obligations.ResetHoldsTheStatedValues : Prop :=
  (∀ r, State.reset.reg r = 0) ∧ State.reset.i = 0 ∧ State.reset.pc = 0x200 ∧ State.reset.sp.val = 0 ∧
  (∀ k, (h : k < 16) → State.reset.stack[k] = 0) ∧ State.reset.dt = 0 ∧ State.reset.st = 0 ∧
  (∀ a, a ≤ 0xFFF →
    State.reset.mem.read a = if 0x050 ≤ a ∧ a ≤ 0x09F then fontTable.getD (a - 0x050) 0 else 0) ∧
  fontTable.length = 80 ∧ State.reset.font.toList = fontTable ∧
  (∀ c r, State.reset.fb.pixel c r = false) ∧ State.reset.waitActive = false ∧ State.reset.waitReg = 0 ∧
  State.reset.status = .running ∧ State.reset.keyWaitMode = .asyncLatch

/-! ### The tick -/

/-- R94: where the core is running and the bytes at PC decode to `i`, a step is `exec i` at the state the tick starts from
with PC moved past the word. The tick is the script's, or, where there is no script, the drawn one after the drawn number of
timer ticks (log entry 4). -/
def Obligations.StepRunsTheDecodedInstruction : Prop :=
  ∀ (s : State) (i : Instr), s.status = .running → s.pc.toNat ≤ 0xFFE →
    decode [s.mem.read s.pc.toNat, s.mem.read (s.pc.toNat + 1)] = .instr i [] →
    (∀ keys rand rest, s.script = .tick keys rand :: rest →
      step s = exec i ((s.tickStart keys rand rest).withPc (s.pc + 2))) ∧
    (s.script = [] →
      step s = exec i ((((s.timerTicks (Config.drawTimerTicks s.draws)).withDraws (s.draws + 1)).tickStart
        (Config.drawKeys s.draws) (Config.drawRand s.draws) []).withPc (s.pc + 2)))

/-- R208: with the wait active and `k` the lowest pressed key, the latch writes `k` to the waiting register and clears the
wait; with no key pressed, or no wait active, it does nothing. -/
def Obligations.LatchWritesTheLowestPressedKey : Prop :=
  ∀ s : State,
    (∀ k : Reg, s.waitActive = true → s.keys.get k = true → (∀ j, j < k → s.keys.get j = false) →
      (s.latch.reg s.waitReg).toNat = k.val ∧ (∀ r, r ≠ s.waitReg → s.latch.reg r = s.reg r) ∧
      s.latch = { s with v := s.latch.v, waitActive := false }) ∧
    ((∀ k : Reg, s.keys.get k = false) → s.latch = s) ∧
    (s.waitActive = false → s.latch = s)

/-- A word that is no instruction is reported and skipped: the tick changes nothing but the latch, PC past the word, and the
reported event (R229; the choice to skip is D11). -/
def Obligations.DecodeErrorIsReportedAndSkipped : Prop :=
  ∀ (s : State) (keys : Keys) (rand : Byte) (rest : List Transaction),
    s.script = .tick keys rand :: rest → s.status = .running → s.pc.toNat ≤ 0xFFE → decodeWord s.fetchWord = none →
    step s = .next { s.tickStart keys rand rest with
      pc := s.pc + 2, event := .decodeError s.fetchWord s.pc,
      faultLog := s.faultLog ++ [.decodeError s.fetchWord s.pc] }

/-- A fetch that needs a byte past 0xFFF halts the core with PC unchanged and nothing else written after the latch (R66, R94,
R232; the range of the fetch is D13). -/
def Obligations.FetchOutsideMemoryHalts : Prop :=
  ∀ (s : State) (keys : Keys) (rand : Byte) (rest : List Transaction),
    s.script = .tick keys rand :: rest → s.status = .running → 0xFFE < s.pc.toNat →
    step s = .next { s.tickStart keys rand rest with
      status := .halted ⟨.memoryOutOfRange s.pc.toNat, s.pc⟩, event := .fatal ⟨.memoryOutOfRange s.pc.toNat, s.pc⟩,
      faultLog := s.faultLog ++ [.fatal ⟨.memoryOutOfRange s.pc.toNat, s.pc⟩] }

/-- A tick of a halted core changes no element of the block's state, pending latch included, and reports Halted with the
error that halted it (R95; D12, D26). -/
def Obligations.HaltedTickChangesNothing : Prop :=
  ∀ (s : State) (e : FatalError) (keys : Keys) (rand : Byte) (rest : List Transaction),
    s.script = .tick keys rand :: rest → s.status = .halted e →
    step s = .next { s with
      script := rest, keys := keys, rand := rand, disp := .none, event := .halted e,
      faultLog := s.faultLog ++ [.halted e] }

/-- Halted is sticky: no transaction but a reset leaves it, whatever is in memory, and until then registers, PC, stack,
memory, framebuffer and wait state stay as they were (R231; D12). -/
def Obligations.OnlyResetLeavesHalted : Prop :=
  ∀ (s t : State) (e : FatalError), s.Inv → s.status = .halted e → s.NoReset → step s = .next t →
    t.status = .halted e ∧ t.v = s.v ∧ t.i = s.i ∧ t.pc = s.pc ∧ t.sp = s.sp ∧ t.stack = s.stack ∧ t.mem = s.mem ∧
    t.fb = s.fb ∧ t.waitActive = s.waitActive ∧ t.waitReg = s.waitReg ∧ t.keyWaitMode = s.keyWaitMode

/-! ### Whole-machine rules -/

/-- R227, R230, R232 over all instructions: an instruction that raises an error by the closed table `errorOf` writes nothing
of its own and halts the core with that error, its address and the event; every other instruction leaves the status, the
event and the fault log alone. No instruction is refused. (D12: checks come before writes. That an error is a next state is
log entry 1, DEDUCED; the address PC - 2 is log entry 11, DEDUCED; a DRW of more than 15 rows, which no word encodes, is log
entry 14.) -/
def Obligations.ErrorsAreExactlyTheTableAndPrecise : Prop :=
  ∀ (i : Instr) (s : State), ∃ t, exec i s = .next t ∧
    match errorOf i s with
    | some c => t = { s with
        status := .halted ⟨c, s.pc - 2⟩, disp := .none, event := .fatal ⟨c, s.pc - 2⟩,
        faultLog := s.faultLog ++ [.fatal ⟨c, s.pc - 2⟩] }
    | none => t.status = s.status ∧ t.event = s.event ∧ t.faultLog = s.faultLog

/-- No step is ever a fault, and none is refused but a `load` that is not admitted any more (R257, U17). That an error is a next
state and never a fault is the model's reading of R225 and R229 to R232 (log entry 1, DEDUCED); which loads are admitted is
log entry 8. -/
def Obligations.OnlyALateLoadIsRefused : Prop :=
  ∀ s : State, (∃ t, step s = .next t) ∨
    (step s = .refused .loadNotAdmitted ∧ s.loadable = false ∧ ∃ bytes rest, s.script = .load bytes :: rest)

/-- Over all 34 instructions, in every outcome: a register that is not the instruction's destination, and VF unless the
instruction writes it as a flag, keeps its value (R21, R22; what leaves VF alone is D4). -/
def Obligations.OnlyNamedRegistersAreWritten : Prop :=
  ∀ (i : Instr) (s t : State) (r : Reg), exec i s = .next t → writesReg i r = false → t.reg r = s.reg r

/-- Over all 34 instructions: I is written only by Annn, Fx1E and Fx29, the timers only by Fx15 (DT) and Fx18 (ST), the call
stack only by 2nnn and 00EE, memory only by Fx33 and Fx55, and the framebuffer only by 00E0 and Dxyn (R23, R27, R30, R35,
R67). -/
def Obligations.EachStateElementHasItsWriters : Prop :=
  ∀ (i : Instr) (s t : State), exec i s = .next t →
    (t.i ≠ s.i → (∃ nnn, i = .ldI nnn) ∨ (∃ x, i = .addIVx x ∨ i = .ldFVx x)) ∧
    (t.dt ≠ s.dt → ∃ x, i = .ldDtVx x) ∧
    (t.st ≠ s.st → ∃ x, i = .ldStVx x) ∧
    (t.sp ≠ s.sp ∨ t.stack ≠ s.stack → i = .ret ∨ ∃ nnn, i = .call nnn) ∧
    (t.mem ≠ s.mem → ∃ x, i = .ldBVx x ∨ i = .ldMemVx x) ∧
    (t.fb ≠ s.fb → i = .cls ∨ ∃ x y n, i = .drw x y n)

/-- R33: an instruction sets the wait state only as Fx0A in AsyncLatch mode with no key pressed, and no instruction clears it;
the latch clears it only in a tick that has a key pressed; in Blocking mode an inactive wait stays inactive through every
step but a reset. -/
def Obligations.WaitStateHasOneSetterAndOneClearer : Prop :=
  (∀ (i : Instr) (s t : State), exec i s = .next t →
    (t.waitActive = s.waitActive ∧ t.waitReg = s.waitReg) ∨
    (∃ x, i = .ldVxK x ∧ s.keyWaitMode = .asyncLatch ∧ (∀ k, s.keys.get k = false) ∧ t.waitActive = true ∧ t.waitReg = x)) ∧
  (∀ s t : State, s.NoReset → step s = .next t → s.waitActive = true → t.waitActive = false →
    ∃ k, t.keys.get k = true) ∧
  (∀ s t : State, s.NoReset → step s = .next t → s.keyWaitMode = .blocking → s.waitActive = false → t.waitActive = false)

/-- R187: the framebuffer changes only in a tick of a running core that runs 00E0 or Dxyn, and at reset; no load, timer tick,
decode error or halted tick changes it. -/
def Obligations.FramebufferChangesOnlyByItsInstructions : Prop :=
  ∀ s t : State, step s = .next t → t.fb = s.fb ∨ (∃ mode rest, s.script = .reset mode :: rest) ∨
    (s.status = .running ∧ s.pc.toNat ≤ 0xFFE ∧
      (s.script = [] ∨ ∃ keys rand rest, s.script = .tick keys rand :: rest) ∧
      (decodeWord s.fetchWord = some .cls ∨ ∃ x y n, decodeWord s.fetchWord = some (.drw x y n)))

/-- The font region is never overwritten by program execution, nor by a load or a timer tick: whatever font the machine holds,
each of its bytes reads after any step but a reset as it read before (R65; a store into it is an error by D14). -/
def Obligations.FontIsNeverOverwritten : Prop :=
  ∀ (s t : State) (a : Nat), 0x050 ≤ a → a ≤ 0x09F → s.NoReset → step s = .next t → t.mem.read a = s.mem.read a

/-- KEY_WAIT_MODE is fixed: only a reset, which starts a new machine, chooses it again (R36; log entry 7). -/
def Obligations.KeyWaitModeIsFixed : Prop :=
  ∀ s t : State, s.NoReset → step s = .next t → t.keyWaitMode = s.keyWaitMode

/-- The fault log: no step removes an entry, and a tick adds its event exactly when that is not Ok (R243). -/
def Obligations.FaultLogRecordsEveryEvent : Prop :=
  ∀ s t : State, step s = .next t →
    (∃ new, t.faultLog = s.faultLog ++ new) ∧
    ((s.script = [] ∨ ∃ keys rand rest, s.script = .tick keys rand :: rest) →
      t.faultLog = s.faultLog ++ if t.event = .ok then [] else [t.event])

/-- The machine's invariant (memory canonical, the machine's font in its region, PC at most 0x10FE, stack entries at most 0x1000, Blocking never
waits, a halted core has its error logged and admits no load) is kept by every step, whatever transaction it is. The field that
says which loads are admitted is log entry 8 (DESIGN CHOICE). -/
def Obligations.StepKeepsTheMachineInvariant : Prop :=
  ∀ s t : State, s.Inv → step s = .next t → t.Inv

/-- The invariant holds after reset. -/
def Obligations.ResetMeetsTheMachineInvariant : Prop := State.reset.Inv

/-! ### Control flow -/

/-- R111: 00EE pops the call stack into PC; on an empty stack it is StackUnderflow, with PC and SP as they were.
That the recorded address is PC - 2 is log entry 11 (DEDUCED from R24 and R228). -/
def Obligations.ReturnPopsIntoPc : Prop :=
  (∀ (s : State) (k : Nat) (h : k < 16), s.sp.val = k + 1 →
    ∃ t, exec .ret s = .next t ∧ t.pc = s.stack[k] ∧ t.sp.val = k ∧ t = { s with pc := t.pc, sp := t.sp } ∧
      ∀ a, t.mem.read a = s.mem.read a) ∧
  (∀ s : State, s.sp.val = 0 →
    ∃ t, exec .ret s = .next t ∧ t.status = .halted ⟨.stackUnderflow, s.pc - 2⟩ ∧ t.pc = s.pc ∧ t.sp = s.sp)

/-- R112: 1nnn, of format NNN, puts nnn, zero-extended, into PC, and changes nothing else. -/
def Obligations.JumpSetsPc : Prop :=
  ∀ (nnn : BitVec 12) (s : State), decodeWord (encodeNNN 0x1 nnn) = some (.jp nnn) ∧
    ∃ t, exec (.jp nnn) s = .next t ∧ t.pc.toNat = nnn.toNat ∧
    t = { s with pc := t.pc } ∧ ∀ a, t.mem.read a = s.mem.read a

/-- R113: 2nnn pushes PC, which is already past the call, and jumps; with 16 entries it is StackOverflow and nothing is
pushed. That the recorded address is PC - 2 is log entry 11 (DEDUCED from R24 and R228). -/
def Obligations.CallPushesTheReturnAddress : Prop :=
  (∀ (nnn : BitVec 12) (s : State) (h : s.sp.val < 16), ∃ t, exec (.call nnn) s = .next t ∧
    t.pc.toNat = nnn.toNat ∧ t.sp.val = s.sp.val + 1 ∧ t.stack[s.sp.val] = s.pc ∧
    (∀ k, (hk : k < 16) → k ≠ s.sp.val → t.stack[k] = s.stack[k]) ∧
    t = { s with pc := t.pc, sp := t.sp, stack := t.stack } ∧ ∀ a, t.mem.read a = s.mem.read a) ∧
  (∀ (nnn : BitVec 12) (s : State), s.sp.val = 16 → ∃ t, exec (.call nnn) s = .next t ∧
    t.status = .halted ⟨.stackOverflow, s.pc - 2⟩ ∧ t.pc = s.pc ∧ t.sp = s.sp ∧ t.stack = s.stack)

/-- R114, R115: 3xkk and 4xkk, of format XKK: 3xkk skips exactly when Vx = kk, 4xkk exactly when not; PC moves 2 further or stays, and nothing else
changes. -/
def Obligations.ImmediateSkips : Prop :=
  ∀ (x : Reg) (kk : Byte) (s : State),
    decodeWord (encodeXKK 0x3 x kk) = some (.seImm x kk) ∧ decodeWord (encodeXKK 0x4 x kk) = some (.sneImm x kk) ∧
    (∃ t, exec (.seImm x kk) s = .next t ∧ t.pc = (if s.reg x = kk then s.pc + 2 else s.pc) ∧
      t = { s with pc := t.pc } ∧ ∀ a, t.mem.read a = s.mem.read a) ∧
    (∃ t, exec (.sneImm x kk) s = .next t ∧ t.pc = (if s.reg x = kk then s.pc else s.pc + 2) ∧
      t = { s with pc := t.pc } ∧ ∀ a, t.mem.read a = s.mem.read a)

/-- R116, R117: 5xy0 and 9xy0, of format XYN: 5xy0 skips exactly when Vx = Vy, 9xy0 exactly when not; a word of op 5 or 9
with n not 0 is no instruction. -/
def Obligations.RegisterSkips : Prop :=
  ∀ (x y : Reg) (s : State),
    decodeWord (encodeXYN 0x5 x y 0) = some (.seReg x y) ∧ decodeWord (encodeXYN 0x9 x y 0) = some (.sneReg x y) ∧
    (∀ n : BitVec 4, n ≠ 0 → decodeWord (encodeXYN 0x5 x y n) = none ∧ decodeWord (encodeXYN 0x9 x y n) = none) ∧
    (∃ t, exec (.seReg x y) s = .next t ∧ t.pc = (if s.reg x = s.reg y then s.pc + 2 else s.pc) ∧
      t = { s with pc := t.pc } ∧ ∀ a, t.mem.read a = s.mem.read a) ∧
    (∃ t, exec (.sneReg x y) s = .next t ∧ t.pc = (if s.reg x = s.reg y then s.pc else s.pc + 2) ∧
      t = { s with pc := t.pc } ∧ ∀ a, t.mem.read a = s.mem.read a)

/-- R118: Bnnn jumps to V0 + nnn, a sum that never wraps; a target past memory is no error at the jump (D13). -/
def Obligations.JumpWithOffsetUsesV0 : Prop :=
  ∀ (nnn : BitVec 12) (s : State), ∃ t, exec (.jpV0 nnn) s = .next t ∧
    t.pc.toNat = (s.reg 0).toNat + nnn.toNat ∧ t = { s with pc := t.pc } ∧ ∀ a, t.mem.read a = s.mem.read a

/-- In an idle loop, a 1nnn that jumps to its own address, a tick changes nothing but what it starts with (its ports and the
latch), and the core is in the same loop after it (R267; D33 for the term). -/
def Obligations.IdleLoopTickChangesOnlyTheLatch : Prop :=
  ∀ (s : State) (a : BitVec 12) (keys : Keys) (rand : Byte) (rest : List Transaction),
    s.script = .tick keys rand :: rest → s.IdleAt a → a.toNat ≤ 0xFFE →
    step s = .next (s.tickStart keys rand rest) ∧ (s.tickStart keys rand rest).IdleAt a

/-- A call followed by a return is back after the call at the old depth, and only the stale stack entry differs (R111, R113;
vector L1-4). -/
def Obligations.ReturnUndoesCall : Prop :=
  ∀ (nnn : BitVec 12) (s : State), s.sp.val < 16 → ∃ t u, exec (.call nnn) s = .next t ∧ exec .ret t = .next u ∧
    u = { s with stack := u.stack } ∧
    ∀ k, (hk : k < 16) → k ≠ s.sp.val → u.stack[k] = s.stack[k]

/-! ### Registers and arithmetic -/

/-- R131, R132, R133: 6xkk, 7xkk (modulo 256, no flag even when it wraps) and 8xy0 write Vx and nothing else; with x = F the
flag register takes the result like any register. -/
def Obligations.LoadsAndAddImmediate : Prop :=
  ∀ (x y : Reg) (kk : Byte) (s : State),
    decodeWord (encodeXKK 0x6 x kk) = some (.ldImm x kk) ∧ decodeWord (encodeXKK 0x7 x kk) = some (.addImm x kk) ∧
    decodeWord (encodeXYN 0x8 x y 0) = some (.ldReg x y) ∧
    (∃ t, exec (.ldImm x kk) s = .next t ∧ t.reg x = kk ∧ (∀ r, r ≠ x → t.reg r = s.reg r) ∧
      t = { s with v := t.v } ∧ ∀ a, t.mem.read a = s.mem.read a) ∧
    (∃ t, exec (.addImm x kk) s = .next t ∧ (t.reg x).toNat = ((s.reg x).toNat + kk.toNat) % 256 ∧
      (∀ r, r ≠ x → t.reg r = s.reg r) ∧ t = { s with v := t.v } ∧ ∀ a, t.mem.read a = s.mem.read a) ∧
    (∃ t, exec (.ldReg x y) s = .next t ∧ t.reg x = s.reg y ∧ (∀ r, r ≠ x → t.reg r = s.reg r) ∧
      t = { s with v := t.v } ∧ ∀ a, t.mem.read a = s.mem.read a)

/-- R134, R135, R136: the bitwise operations, bit by bit; VF is not reset unless it is the destination (D4). -/
def Obligations.LogicIsBitwise : Prop :=
  ∀ (x y : Reg) (s : State),
    (∃ t, exec (.or x y) s = .next t ∧
      (∀ b, (t.reg x).getLsbD b = ((s.reg x).getLsbD b || (s.reg y).getLsbD b)) ∧
      (∀ r, r ≠ x → t.reg r = s.reg r) ∧ t = { s with v := t.v } ∧ ∀ a, t.mem.read a = s.mem.read a) ∧
    (∃ t, exec (.and x y) s = .next t ∧
      (∀ b, (t.reg x).getLsbD b = ((s.reg x).getLsbD b && (s.reg y).getLsbD b)) ∧
      (∀ r, r ≠ x → t.reg r = s.reg r) ∧ t = { s with v := t.v } ∧ ∀ a, t.mem.read a = s.mem.read a) ∧
    (∃ t, exec (.xor x y) s = .next t ∧
      (∀ b, (t.reg x).getLsbD b = ((s.reg x).getLsbD b != (s.reg y).getLsbD b)) ∧
      (∀ r, r ≠ x → t.reg r = s.reg r) ∧ t = { s with v := t.v } ∧ ∀ a, t.mem.read a = s.mem.read a)

/-- R137: the low byte of the exact sum goes to Vx and the carry to VF; with x = F VF ends holding the carry (D2). -/
def Obligations.AddSetsCarry : Prop :=
  ∀ (x y : Reg) (s : State), ∃ t, exec (.addReg x y) s = .next t ∧
    t.reg VF = (if 255 < (s.reg x).toNat + (s.reg y).toNat then 1 else 0) ∧
    (x ≠ VF → (t.reg x).toNat = ((s.reg x).toNat + (s.reg y).toNat) % 256) ∧
    (∀ r, r ≠ x → r ≠ VF → t.reg r = s.reg r) ∧ t = { s with v := t.v } ∧ ∀ a, t.mem.read a = s.mem.read a

/-- R138, R140: Vx - Vy and Vy - Vx modulo 256, VF 1 exactly when no borrow occurred; with x = F VF ends holding the flag
(D2). -/
def Obligations.SubtractionsSetNoBorrow : Prop :=
  ∀ (x y : Reg) (s : State),
    (∃ t, exec (.sub x y) s = .next t ∧
      t.reg VF = (if (s.reg y).toNat ≤ (s.reg x).toNat then 1 else 0) ∧
      (x ≠ VF → (t.reg x).toNat = (256 + (s.reg x).toNat - (s.reg y).toNat) % 256) ∧
      (∀ r, r ≠ x → r ≠ VF → t.reg r = s.reg r) ∧ t = { s with v := t.v } ∧ ∀ a, t.mem.read a = s.mem.read a) ∧
    (∃ t, exec (.subn x y) s = .next t ∧
      t.reg VF = (if (s.reg x).toNat ≤ (s.reg y).toNat then 1 else 0) ∧
      (x ≠ VF → (t.reg x).toNat = (256 + (s.reg y).toNat - (s.reg x).toNat) % 256) ∧
      (∀ r, r ≠ x → r ≠ VF → t.reg r = s.reg r) ∧ t = { s with v := t.v } ∧ ∀ a, t.mem.read a = s.mem.read a)

/-- R139, R141: Vx shifts by one whatever y is, and VF is the bit shifted out, 0 as well as 1; with x = F VF ends holding that
bit (D2). -/
def Obligations.ShiftsSetTheBitShiftedOut : Prop :=
  ∀ (x y : Reg) (s : State),
    (∃ t, exec (.shr x y) s = .next t ∧ (t.reg VF).toNat = (s.reg x).toNat % 2 ∧
      (x ≠ VF → (t.reg x).toNat = (s.reg x).toNat / 2) ∧
      (∀ r, r ≠ x → r ≠ VF → t.reg r = s.reg r) ∧ t = { s with v := t.v } ∧ ∀ a, t.mem.read a = s.mem.read a) ∧
    (∃ t, exec (.shl x y) s = .next t ∧ (t.reg VF).toNat = (s.reg x).toNat / 128 ∧
      (x ≠ VF → (t.reg x).toNat = 2 * (s.reg x).toNat % 256) ∧
      (∀ r, r ≠ x → r ≠ VF → t.reg r = s.reg r) ∧ t = { s with v := t.v } ∧ ∀ a, t.mem.read a = s.mem.read a)

/-- R142: Vx takes the tick's random byte under the mask, for every byte that may arrive (D19). -/
def Obligations.RandomIsMasked : Prop :=
  ∀ (x : Reg) (kk : Byte) (s : State), ∃ t, exec (.rnd x kk) s = .next t ∧
    (∀ b, (t.reg x).getLsbD b = (s.rand.getLsbD b && kk.getLsbD b)) ∧
    (∀ r, r ≠ x → t.reg r = s.reg r) ∧ t = { s with v := t.v } ∧ ∀ a, t.mem.read a = s.mem.read a

/-! ### Index register and memory -/

/-- R161: Annn, of format NNN, puts nnn into I and changes nothing else. -/
def Obligations.LoadIndex : Prop :=
  ∀ (nnn : BitVec 12) (s : State), decodeWord (encodeNNN 0xA nnn) = some (.ldI nnn) ∧ ∃ t, exec (.ldI nnn) s = .next t ∧ t.i.toNat = nnn.toNat ∧
    t = { s with i := t.i } ∧ ∀ a, t.mem.read a = s.mem.read a

/-- R162, R163: Fx1E adds Vx to I modulo 65536 and sets no flag (D4, D5); Fx29 gives the glyph address of the low nibble of
Vx (D6). -/
def Obligations.IndexArithmetic : Prop :=
  ∀ (x : Reg) (s : State),
    (∃ t, exec (.addIVx x) s = .next t ∧ t.i.toNat = (s.i.toNat + (s.reg x).toNat) % 65536 ∧
      t = { s with i := t.i } ∧ ∀ a, t.mem.read a = s.mem.read a) ∧
    (∃ t, exec (.ldFVx x) s = .next t ∧ t.i.toNat = 0x050 + 5 * ((s.reg x).toNat % 16) ∧
      t = { s with i := t.i } ∧ ∀ a, t.mem.read a = s.mem.read a)

/-- R164: where the three bytes are in memory and outside the font, Fx33 writes the hundreds, tens and units of Vx at I, I+1,
I+2; every other byte of memory, I (D3) and everything else stay. -/
def Obligations.BcdStoresThreeDigits : Prop :=
  ∀ (x : Reg) (s : State), s.mem.wf = true → s.i.toNat + 2 ≤ 0xFFF → (s.i.toNat + 2 < 0x050 ∨ 0x09F < s.i.toNat) →
    ∃ t, exec (.ldBVx x) s = .next t ∧
      (t.mem.read s.i.toNat).toNat = (s.reg x).toNat / 100 ∧
      (t.mem.read (s.i.toNat + 1)).toNat = (s.reg x).toNat / 10 % 10 ∧
      (t.mem.read (s.i.toNat + 2)).toNat = (s.reg x).toNat % 10 ∧
      (∀ a, a < s.i.toNat ∨ s.i.toNat + 2 < a → t.mem.read a = s.mem.read a) ∧ t = { s with mem := t.mem }

/-- R165: where the x + 1 bytes are in memory and outside the font, Fx55 stores V0 to Vx at I onwards; every other byte of
memory, I (D3) and everything else stay. -/
def Obligations.RegistersAreStored : Prop :=
  ∀ (x : Reg) (s : State), s.mem.wf = true → s.i.toNat + x.val ≤ 0xFFF →
    (s.i.toNat + x.val < 0x050 ∨ 0x09F < s.i.toNat) →
    ∃ t, exec (.ldMemVx x) s = .next t ∧
      (∀ j : Reg, j ≤ x → t.mem.read (s.i.toNat + j.val) = s.reg j) ∧
      (∀ a, a < s.i.toNat ∨ s.i.toNat + x.val < a → t.mem.read a = s.mem.read a) ∧ t = { s with mem := t.mem }

/-- R166: where the x + 1 bytes are in memory, the font included, Fx65 loads V0 to Vx from I onwards; the registers above x,
memory, I (D3) and everything else stay. -/
def Obligations.RegistersAreLoaded : Prop :=
  ∀ (x : Reg) (s : State), s.i.toNat + x.val ≤ 0xFFF →
    ∃ t, exec (.ldVxMem x) s = .next t ∧
      (∀ j : Reg, j ≤ x → t.reg j = s.mem.read (s.i.toNat + j.val)) ∧ (∀ r, x < r → t.reg r = s.reg r) ∧
      t = { s with v := t.v } ∧ ∀ a, t.mem.read a = s.mem.read a

/-- A store and then a load at the same I and the same x restore V0 to Vx, whatever the registers held in between, when
neither raises an error (R166's round trip; vector L1-10). -/
def Obligations.StoreThenLoadRestoresRegisters : Prop :=
  ∀ (x : Reg) (s : State) (between : Vector Byte 16), s.mem.wf = true → s.i.toNat + x.val ≤ 0xFFF →
    (s.i.toNat + x.val < 0x050 ∨ 0x09F < s.i.toNat) →
    ∃ t u, exec (.ldMemVx x) s = .next t ∧ exec (.ldVxMem x) { t with v := between } = .next u ∧
      (∀ j : Reg, j ≤ x → u.reg j = s.reg j) ∧ ∀ r : Reg, x < r → u.reg r = between.get r

/-! ### Display -/

/-- R181: the word 00E0 is CLS, which turns every pixel off, emits Clear, and changes nothing else. -/
def Obligations.ClearBlanksTheFramebuffer : Prop :=
  decodeWord 0x00E0 = some .cls ∧ ∀ s : State, ∃ t, exec .cls s = .next t ∧ (∀ c r, t.fb.pixel c r = false) ∧ t.disp = .clear ∧
    t = { s with fb := t.fb, disp := t.disp } ∧ ∀ a, t.mem.read a = s.mem.read a

/-- R182, R183, R185, R186, pixel by pixel rather than loop by loop: where the n bytes at I are in memory, each pixel of the grid is
its old value XOR the sprite's bit over it; VF is 1 exactly when some pixel that was on has a set bit over it; the raw
coordinates and rows are emitted; nothing else changes. Bits outside the grid are discarded (D1), the coordinates are read
before VF is written (D2), and with n = 0 nothing is read or drawn whatever I holds (D21). A term with n above 15 is encoded by no word,
and its meaning is the model's choice (log entry 14, DESIGN CHOICE). -/
def Obligations.DrawIsPixelwiseXor : Prop :=
  ∀ (x y : Reg) (n : Nat) (s : State), n = 0 ∨ s.i.toNat + n - 1 ≤ 0xFFF →
    ∃ t rows, exec (.drw x y n) s = .next t ∧
      rows.length = n ∧ (∀ j, j < n → rows.getD j 0 = s.mem.read (s.i.toNat + j)) ∧
      (∀ c r, c < 64 → r < 32 → t.fb.pixel c r =
        (s.fb.pixel c r != spriteCovers (s.reg x).toNat (s.reg y).toNat rows c r)) ∧
      (t.reg VF = 0 ∨ t.reg VF = 1) ∧
      (t.reg VF = 1 ↔ ∃ c r, s.fb.pixel c r = true ∧
        spriteCovers (s.reg x).toNat (s.reg y).toNat rows c r = true) ∧
      (∀ r, r ≠ VF → t.reg r = s.reg r) ∧ t.disp = .xorSprite (s.reg x) (s.reg y) rows ∧
      t = { s with fb := t.fb, v := t.v, disp := t.disp } ∧ ∀ a, t.mem.read a = s.mem.read a

/-- R184: after a drawing VF reports whether any collision, a pixel going from on to off, occurred across the whole sprite. -/
def Obligations.CollisionFlagIsTheAggregate : Prop :=
  ∀ (x y : Reg) (n : Nat) (s t : State), n = 0 ∨ s.i.toNat + n - 1 ≤ 0xFFF → exec (.drw x y n) s = .next t →
    ((∃ c r, s.fb.pixel c r = true ∧ t.fb.pixel c r = false) → t.reg VF = 1) ∧
    ((¬∃ c r, s.fb.pixel c r = true ∧ t.fb.pixel c r = false) → t.reg VF = 0)

/-- Drawing a sprite twice at the same place leaves the framebuffer as it was, and the second drawing collides exactly when the
first turned some pixel on (R183; vector L1-9). -/
def Obligations.DrawingTwiceErases : Prop :=
  ∀ (fb : Framebuffer) (cx cy : Nat) (rows : List Byte),
    ((fb.xorSprite cx cy rows).1.xorSprite cx cy rows).1 = fb ∧
    (((fb.xorSprite cx cy rows).1.xorSprite cx cy rows).2 = true ↔
      ∃ c r, fb.pixel c r = false ∧ (fb.xorSprite cx cy rows).1.pixel c r = true)

/-! ### Keypad and timers -/

/-- R201, R202: where Vx names a key, Ex9E skips exactly when the tick's snapshot has it pressed, ExA1 exactly when not. -/
def Obligations.KeySkips : Prop :=
  ∀ (x k : Reg) (s : State), (s.reg x).toNat = k.val →
    (∃ t, exec (.skp x) s = .next t ∧ t.pc = (if s.keys.get k then s.pc + 2 else s.pc) ∧
      t = { s with pc := t.pc } ∧ ∀ a, t.mem.read a = s.mem.read a) ∧
    (∃ t, exec (.sknp x) s = .next t ∧ t.pc = (if s.keys.get k then s.pc else s.pc + 2) ∧
      t = { s with pc := t.pc } ∧ ∀ a, t.mem.read a = s.mem.read a)

/-- A value above 15 names no key: Ex9E and ExA1 halt the core with it and change nothing else of the block (R200; D7).
That the recorded address is PC - 2 is log entry 11 (DEDUCED from R24 and R228). -/
def Obligations.NoSuchKeyHalts : Prop :=
  ∀ (x : Reg) (i : Instr) (s : State), 15 < (s.reg x).toNat → i = .skp x ∨ i = .sknp x →
    ∃ t, exec i s = .next t ∧ t.status = .halted ⟨.invalidKeyIndex (s.reg x), s.pc - 2⟩ ∧
      t = { s with status := t.status, disp := .none, event := t.event, faultLog := t.faultLog }

/-- R203, R204, R205: Fx07 reads DT into Vx, Fx15 and Fx18 write DT and ST from Vx; nothing else changes. -/
def Obligations.TimerTransfers : Prop :=
  ∀ (x : Reg) (s : State),
    decodeWord (encodeXKK 0xF x 0x07) = some (.ldVxDt x) ∧ decodeWord (encodeXKK 0xF x 0x15) = some (.ldDtVx x) ∧
    decodeWord (encodeXKK 0xF x 0x18) = some (.ldStVx x) ∧
    (∃ t, exec (.ldVxDt x) s = .next t ∧ t.reg x = s.dt ∧ (∀ r, r ≠ x → t.reg r = s.reg r) ∧
      t = { s with v := t.v } ∧ ∀ a, t.mem.read a = s.mem.read a) ∧
    (∃ t, exec (.ldDtVx x) s = .next t ∧ t = { s with dt := s.reg x } ∧ ∀ a, t.mem.read a = s.mem.read a) ∧
    (∃ t, exec (.ldStVx x) s = .next t ∧ t = { s with st := s.reg x } ∧ ∀ a, t.mem.read a = s.mem.read a)

/-- Fx0A in both modes with a key pressed: Vx takes the lowest pressed key at once, and no marker is set (R206, R207; D8, D9). -/
def Obligations.WaitKeyTakesAPressedKey : Prop :=
  ∀ (x k : Reg) (s : State), s.keys.get k = true → (∀ j, j < k → s.keys.get j = false) →
    ∃ t, exec (.ldVxK x) s = .next t ∧ (t.reg x).toNat = k.val ∧ (∀ r, r ≠ x → t.reg r = s.reg r) ∧
      t = { s with v := t.v } ∧ ∀ a, t.mem.read a = s.mem.read a

/-- Fx0A with no key pressed: in AsyncLatch mode it records x as the pending register, replacing an earlier one, and PC has
advanced (R206; D8); in Blocking mode PC goes back to the instruction itself and nothing else changes (R207; D9). -/
def Obligations.WaitKeyWithNoKey : Prop :=
  ∀ (x : Reg) (s : State), (∀ k, s.keys.get k = false) → ∃ t, exec (.ldVxK x) s = .next t ∧
    (s.keyWaitMode = .asyncLatch → t = { s with waitActive := true, waitReg := x }) ∧
    (s.keyWaitMode = .blocking → t = { s with pc := s.pc - 2 })

/-! ### The host's transactions -/

/-- A timer tick takes 1 from each timer that is not 0 and changes nothing else, whether the core runs or is halted (R209;
D17). -/
def Obligations.TimerTickCountsDown : Prop :=
  ∀ (s : State) (rest : List Transaction), s.script = .timerTick :: rest →
    ∃ t, step s = .next t ∧ t.dt.toNat = s.dt.toNat - 1 ∧ t.st.toNat = s.st.toNat - 1 ∧
      t = { s with dt := t.dt, st := t.st, script := rest }

/-- Before a drawn tick the timers have lost a drawn number of counts, down to 0, so that Fx07 reads between 0 and the old
value and nothing more can be said (R210; vector L2-F19; log entry 4). -/
def Obligations.DrawnTimerTicksOnlyCountDown : Prop :=
  ∀ (s : State) (k : Nat), (s.timerTicks k).dt.toNat = s.dt.toNat - k ∧ (s.timerTicks k).st.toNat = s.st.toNat - k ∧
    s.timerTicks k = { s with dt := (s.timerTicks k).dt, st := (s.timerTicks k).st }

/-- The first load, of at most 3584 bytes, places byte j at 0x200 + j; every other byte of memory and everything else of the
block stay, and no further load is admitted (R257; D22). The event Ok and the display output kept as it was are the model's choice
(log entry 6, DESIGN CHOICE), and so is the field that says what is admitted (log entry 8). -/
def Obligations.LoadPlacesTheProgram : Prop :=
  ∀ (s : State) (bytes : List Byte) (rest : List Transaction), s.script = .load bytes :: rest → s.loadable = true →
    s.mem.wf = true → bytes.length ≤ 3584 →
    ∃ t, step s = .next t ∧ (∀ j, (h : j < bytes.length) → t.mem.read (0x200 + j) = bytes[j]) ∧
      (∀ a, a < 0x200 ∨ 0x200 + bytes.length ≤ a → t.mem.read a = s.mem.read a) ∧
      t = { s with mem := t.mem, event := .ok, loadable := false, script := rest }

/-- A first load of more than 3584 bytes writes nothing and returns LoadTooLarge; a load that is not admitted is refused (R257,
U17). What a rejected load leaves admitted is log entry 8 (DESIGN CHOICE), that LoadTooLarge goes into the fault log is log entry
2 (DESIGN CHOICE), and that the display output stays is log entry 6 (DESIGN CHOICE). -/
def Obligations.BadLoadsWriteNothing : Prop :=
  ∀ (s : State) (bytes : List Byte) (rest : List Transaction), s.script = .load bytes :: rest →
    (s.loadable = true → 3584 < bytes.length → ∃ t, step s = .next t ∧ t.event = .loadTooLarge bytes.length ∧
      t = { s with event := t.event, faultLog := s.faultLog ++ [t.event], loadable := false, script := rest }) ∧
    (s.loadable = false → step s = .refused .loadNotAdmitted)

/-- A reset is construction: from any state, a halted one too, every element has its reset value in the chosen mode, with the
machine's font (R256; D23). The fault log, the script and the draws stay (log entry 2, DESIGN CHOICE), and the ports take the
values of log entries 5 and 6 (DESIGN CHOICE). -/
def Obligations.ResetIsConstruction : Prop :=
  ∀ (s : State) (mode : KeyWaitMode) (rest : List Transaction), s.script = .reset mode :: rest →
    step s = .next { State.construct mode s.font with faultLog := s.faultLog, script := rest, draws := s.draws }

/-- FONT_TABLE is a parameter of the machine: no step changes it, and a reset of a machine with any font writes that font to
0x050 to 0x09F and leaves 0 in every other byte (R6, R64, R255, U9; the zero is D15, the field log entry 9). -/
def Obligations.FontTableIsFixedAndResetWritesIt : Prop :=
  (∀ s t : State, step s = .next t → t.font = s.font) ∧
  (∀ (s : State) (mode : KeyWaitMode) (rest : List Transaction), s.script = .reset mode :: rest →
    ∃ t, step s = .next t ∧ (∀ j, (h : j < 80) → t.mem.read (0x050 + j) = s.font[j]) ∧
      ∀ a, a < 0x050 ∨ 0x09F < a → t.mem.read a = 0)

/-- The launch state is the reset state after one successful load: for at most 3584 bytes, the state one step after the reset
state with the load to come, with byte j at 0x200 + j, the font in its region, 0 elsewhere, no event but Ok, no further load
admitted, and all else at reset; for more bytes there is no launch state (R260; D22, U11). The outputs are log entry 6 and the
admission is log entry 8 (DESIGN CHOICE). -/
def Obligations.LaunchIsResetAfterOneSuccessfulLoad : Prop :=
  ∀ (mode : KeyWaitMode) (font : FontTable) (bytes : List Byte) (rest : List Transaction),
    (bytes.length ≤ 3584 → ∃ t, State.launch mode font bytes rest = some t ∧
      step ((State.construct mode font).withScript (.load bytes :: rest)) = .next t ∧
      (∀ j, (h : j < bytes.length) → t.mem.read (0x200 + j) = bytes[j]) ∧
      (∀ j, (h : j < 80) → t.mem.read (0x050 + j) = font[j]) ∧
      (∀ a, a < 0x050 ∨ (0x09F < a ∧ a < 0x200) ∨ 0x200 + bytes.length ≤ a → t.mem.read a = 0) ∧
      t = { State.construct mode font with mem := t.mem, loadable := false, script := rest }) ∧
    (3584 < bytes.length → State.launch mode font bytes rest = none)
end

