-- ==== Sys2Proof/Laws/Encoding.lean ====
section
/-! SUPPORT. The fields of an encoded word: each format gives every field back (spec/30_encoding.md R86, R87). -/

namespace Sys2Proof

theorem toNat_append_eq {m n : Nat} (a : BitVec m) (b : BitVec n) : (a ++ b).toNat = a.toNat * 2 ^ n + b.toNat := by
  rw [BitVec.toNat_append, ← Nat.shiftLeft_add_eq_or_of_lt b.isLt, Nat.shiftLeft_eq]

/-! ### Words as numbers -/

theorem encodeNNN_toNat (op : BitVec 4) (nnn : BitVec 12) :
    (encodeNNN op nnn).toNat = op.toNat * 4096 + nnn.toNat := toNat_append_eq op nnn

theorem encodeXKK_toNat (op : BitVec 4) (x : Reg) (kk : Byte) :
    (encodeXKK op x kk).toNat = (op.toNat * 16 + x.val) * 256 + kk.toNat := by
  rw [show (encodeXKK op x kk).toNat = _ from toNat_append_eq (op ++ regBits x) kk, toNat_append_eq]
  rfl

theorem encodeXYN_toNat (op : BitVec 4) (x y : Reg) (n : BitVec 4) :
    (encodeXYN op x y n).toNat = ((op.toNat * 16 + x.val) * 16 + y.val) * 16 + n.toNat := by
  rw [show (encodeXYN op x y n).toNat = _ from toNat_append_eq (op ++ regBits x ++ regBits y) n, toNat_append_eq,
    toNat_append_eq]
  rfl

theorem wordOfBytes_toNat (hi lo : Byte) : (wordOfBytes hi lo).toNat = hi.toNat * 256 + lo.toNat :=
  toNat_append_eq hi lo

/-! ### Fields as numbers -/

theorem extract_toNat (w : Word) (lo len : Nat) : (w.extractLsb' lo len).toNat = w.toNat / 2 ^ lo % 2 ^ len := by
  simp [BitVec.extractLsb'_toNat, Nat.shiftRight_eq_div_pow]

theorem fieldOp_eq (w : Word) : fieldOp w = w.toNat / 4096 % 16 := extract_toNat w 12 4
theorem fieldX_val (w : Word) : (fieldX w).val = w.toNat / 256 % 16 := extract_toNat w 8 4
theorem fieldY_val (w : Word) : (fieldY w).val = w.toNat / 16 % 16 := extract_toNat w 4 4
theorem fieldN_eq (w : Word) : fieldN w = w.toNat % 16 :=
  (extract_toNat w 0 4).trans (by rw [Nat.pow_zero, Nat.div_one]; rfl)
theorem fieldKK_toNat (w : Word) : (fieldKK w).toNat = w.toNat % 256 :=
  (extract_toNat w 0 8).trans (by rw [Nat.pow_zero, Nat.div_one]; rfl)
theorem fieldNNN_toNat (w : Word) : (fieldNNN w).toNat = w.toNat % 4096 :=
  (extract_toNat w 0 12).trans (by rw [Nat.pow_zero, Nat.div_one]; rfl)

/-! ### The fields of each format -/

variable (op n : BitVec 4) (x y : Reg) (kk : Byte) (nnn : BitVec 12)

@[simp] theorem fieldOp_encodeNNN : fieldOp (encodeNNN op nnn) = op.toNat := by
  rw [fieldOp_eq, encodeNNN_toNat]; omega
@[simp] theorem fieldNNN_encodeNNN : fieldNNN (encodeNNN op nnn) = nnn := by
  apply BitVec.eq_of_toNat_eq; rw [fieldNNN_toNat, encodeNNN_toNat]; omega
@[simp] theorem fieldOp_encodeXKK : fieldOp (encodeXKK op x kk) = op.toNat := by
  rw [fieldOp_eq, encodeXKK_toNat]; omega
@[simp] theorem fieldX_encodeXKK : fieldX (encodeXKK op x kk) = x := by
  apply Fin.ext; rw [fieldX_val, encodeXKK_toNat]; omega
@[simp] theorem fieldKK_encodeXKK : fieldKK (encodeXKK op x kk) = kk := by
  apply BitVec.eq_of_toNat_eq; rw [fieldKK_toNat, encodeXKK_toNat]; omega
@[simp] theorem fieldOp_encodeXYN : fieldOp (encodeXYN op x y n) = op.toNat := by
  rw [fieldOp_eq, encodeXYN_toNat]; omega
@[simp] theorem fieldX_encodeXYN : fieldX (encodeXYN op x y n) = x := by
  apply Fin.ext; rw [fieldX_val, encodeXYN_toNat]; omega
@[simp] theorem fieldY_encodeXYN : fieldY (encodeXYN op x y n) = y := by
  apply Fin.ext; rw [fieldY_val, encodeXYN_toNat]; omega
@[simp] theorem fieldN_encodeXYN : fieldN (encodeXYN op x y n) = n.toNat := by
  rw [fieldN_eq, encodeXYN_toNat]; omega

/-! ### The masks of the opcode map as numbers -/

theorem and_F000_toNat (w : Word) : (w &&& 0xF000#16).toNat = fieldOp w * 4096 := by
  have : w &&& 0xF000#16 = w >>> 12 <<< 12 := by
    apply BitVec.eq_of_getLsbD_eq
    intro i hi
    interval_cases i <;> simp
  rw [this, fieldOp_eq, BitVec.toNat_shiftLeft, BitVec.toNat_ushiftRight, Nat.shiftLeft_eq, Nat.shiftRight_eq_div_pow]
  omega

/-- A mask over the top nibble and a low part keeps the sum of the two. -/
theorem and_or_toNat (w low : Word) (h : low.toNat < 4096) :
    (w &&& (0xF000#16 ||| low)).toNat = fieldOp w * 4096 + (w &&& low).toNat := by
  have hlow : (w &&& low).toNat ≤ low.toNat := by rw [BitVec.toNat_and]; exact Nat.and_le_right
  have hdisj : (w &&& 0xF000#16) &&& (w &&& low) = 0#16 := by
    have : 0xF000#16 &&& low = 0#16 := by
      apply BitVec.eq_of_getLsbD_eq
      intro i hi
      rcases Nat.lt_or_ge i 12 with h12 | h12
      · interval_cases i <;> simp
      · have : low.getLsbD i = false :=
          Nat.testBit_lt_two_pow (Nat.lt_of_lt_of_le h (Nat.pow_le_pow_right (by omega) h12 : 2 ^ 12 ≤ 2 ^ i))
        simp [this]
    rw [show (w &&& 0xF000#16) &&& (w &&& low) = w &&& (0xF000#16 &&& low) by ac_rfl, this, BitVec.and_zero]
  rw [BitVec.and_or_distrib_left, ← BitVec.add_eq_or_of_and_eq_zero _ _ hdisj, BitVec.toNat_add, and_F000_toNat,
    Nat.mod_eq_of_lt]
  have : fieldOp w < 16 := (w.extractLsb' 12 4).isLt
  omega

theorem and_F00F_toNat (w : Word) : (w &&& 0xF00F#16).toNat = fieldOp w * 4096 + fieldN w := by
  rw [show 0xF00F#16 = 0xF000#16 ||| 0x000F#16 from rfl, and_or_toNat w _ (by decide), fieldN_eq, BitVec.toNat_and]
  exact congrArg _ (Nat.and_two_pow_sub_one_eq_mod w.toNat 4)

theorem and_F0FF_toNat (w : Word) : (w &&& 0xF0FF#16).toNat = fieldOp w * 4096 + (fieldKK w).toNat := by
  rw [show 0xF0FF#16 = 0xF000#16 ||| 0x00FF#16 from rfl, and_or_toNat w _ (by decide), fieldKK_toNat, BitVec.toNat_and]
  exact congrArg _ (Nat.and_two_pow_sub_one_eq_mod w.toNat 8)

/-- The two bytes of a word, high byte first, make the word again (20_memory.md R66). -/
theorem wordOfBytes_bytesOfWord (w : Word) : wordOfBytes (w.extractLsb' 8 8) (w.extractLsb' 0 8) = w := by
  apply BitVec.eq_of_toNat_eq
  rw [wordOfBytes_toNat, extract_toNat, extract_toNat]
  omega

end Sys2Proof
end

