-- ==== Sys2Proof/Laws/Framebuffer.lean ====
section
/-! SUPPORT. The framebuffer: one pixel after one toggle, and the blank grid. -/

namespace Sys2Proof.Machine

@[simp] theorem Framebuffer.pixel_blank (c r : Nat) : Framebuffer.blank.pixel c r = false := by
  unfold Framebuffer.pixel Framebuffer.blank
  split <;> simp

/-- Outside the grid no pixel is on. -/
theorem Framebuffer.pixel_outside (fb : Framebuffer) {c r : Nat} (h : ¬(c < 64 ∧ r < 32)) : fb.pixel c r = false := by
  simp [Framebuffer.pixel, h]

/-- A toggle turns the pixel it names, if that lies in the grid, and no other. -/
theorem Framebuffer.pixel_toggle (fb : Framebuffer) (c r c' r' : Nat) :
    (fb.toggle c r).pixel c' r' =
      if c' = c ∧ r' = r ∧ c < 64 ∧ r < 32 then !fb.pixel c r else fb.pixel c' r' := by
  by_cases hin : c < 64 ∧ r < 32
  · by_cases hin' : c' < 64 ∧ r' < 32
    · simp only [Framebuffer.toggle, Framebuffer.pixel, hin, hin', and_self, dite_true, and_true]
      by_cases hr : r' = r
      · subst hr
        by_cases hc : c' = c
        · subst hc; simp
        · simp [hc, Ne.symm hc]
      · simp [hr, Ne.symm hr]
    · rw [Framebuffer.pixel_outside _ hin', Framebuffer.pixel_outside _ hin', if_neg (by omega)]
  · rw [if_neg (by omega)]; simp [Framebuffer.toggle, hin]

/-- Two framebuffers with the same pixels are equal. -/
theorem Framebuffer.ext_pixel {f g : Framebuffer} (h : ∀ c r, c < 64 → r < 32 → f.pixel c r = g.pixel c r) : f = g := by
  refine Vector.ext fun r hr => Vector.ext fun c hc => ?_
  have := h c r hc hr
  simpa [Framebuffer.pixel, hc, hr] using this

end Sys2Proof.Machine
end

