-- ==== Sys2Proof/Laws/Memory.lean ====
section
/-! SUPPORT. Memory: read over write, the canonical form is kept, and what the range and font checks answer. -/

namespace Sys2Proof.Machine

/-! ### Reads over writes -/

theorem Memory.read_write_ne (m : Memory) {a b : Nat} (x : Byte) (h : b ≠ a) : (m.write a x).read b = m.read b := by
  induction m with
  | nil => unfold Memory.write; split <;> simp [Memory.read, h]
  | cons c m ih =>
    obtain ⟨k, y⟩ := c
    simp only [Memory.write]
    split
    · split <;> simp [Memory.read, h]
    · split
      · next hk => subst hk; split <;> simp [Memory.read, h]
      · simp [Memory.read, ih]

theorem Memory.wfFrom_mono {lo lo' : Nat} {m : Memory} (h : Memory.wfFrom lo m = true) (hl : lo' ≤ lo) :
    Memory.wfFrom lo' m = true := by
  cases m with
  | nil => rfl
  | cons c m =>
    simp only [Memory.wfFrom, Bool.and_eq_true, decide_eq_true_eq] at h ⊢
    exact ⟨⟨⟨by omega, h.1.1.2⟩, h.1.2⟩, h.2⟩

/-- Below the first address a canonical memory may list, a byte reads as the reset contents. -/
theorem Memory.read_of_lt {lo a : Nat} {m : Memory} (h : Memory.wfFrom lo m = true) (ha : a < lo) :
    m.read a = resetByte a := by
  induction m generalizing lo with
  | nil => rfl
  | cons c m ih =>
    simp only [Memory.wfFrom, Bool.and_eq_true, decide_eq_true_eq] at h
    have hne : a ≠ c.1 := by omega
    simp only [Memory.read, if_neg hne]
    exact ih h.2 (by omega)

theorem Memory.read_write_same_from {lo a : Nat} {m : Memory} (x : Byte) (h : Memory.wfFrom lo m = true) :
    (m.write a x).read a = x := by
  induction m generalizing lo with
  | nil =>
    unfold Memory.write
    split
    · next hx => simp [Memory.read, hx]
    · simp [Memory.read]
  | cons c m ih =>
    obtain ⟨k, y⟩ := c
    simp only [Memory.wfFrom, Bool.and_eq_true, decide_eq_true_eq] at h
    simp only [Memory.write]
    split
    · next hk =>
      split
      · next hx =>
        simp only [Memory.read, if_neg (by omega : a ≠ k), hx]
        exact Memory.read_of_lt h.2 (by omega)
      · simp [Memory.read]
    · split
      · next hk =>
        split
        · next hx => subst hk; rw [hx]; exact Memory.read_of_lt h.2 (by omega)
        · simp [Memory.read]
      · next hk => simp only [Memory.read, if_neg hk]; exact ih h.2

/-- In a canonical memory a byte reads as it was last written. -/
theorem Memory.read_write_same {m : Memory} (a : Nat) (x : Byte) (h : m.wf = true) : (m.write a x).read a = x :=
  Memory.read_write_same_from x h

theorem Memory.wfFrom_write {lo a : Nat} {m : Memory} (x : Byte) (h : Memory.wfFrom lo m = true) (hlo : lo ≤ a)
    (ha : a < Config.memSize) : Memory.wfFrom lo (m.write a x) = true := by
  induction m generalizing lo with
  | nil =>
    unfold Memory.write
    split
    · rfl
    · next hx => simp [Memory.wfFrom, hlo, ha, hx]
  | cons c m ih =>
    obtain ⟨k, y⟩ := c
    have h' := h
    simp only [Memory.wfFrom, Bool.and_eq_true, decide_eq_true_eq, bne_iff_ne] at h
    simp only [Memory.write]
    split
    · next hk =>
      split
      · exact h'
      · next hx => simp [Memory.wfFrom, hlo, ha, hx, h]; omega
    · split
      · next hk =>
        split
        · exact Memory.wfFrom_mono h.2 (by omega)
        · next hx => subst hk; simp [Memory.wfFrom, hlo, ha, hx, h]
      · next h1 h2 => simp [Memory.wfFrom, h]; exact ih h.2 (by omega)

/-- A write inside the address space keeps the canonical form. -/
theorem Memory.wf_write {m : Memory} {a : Nat} (x : Byte) (h : m.wf = true) (ha : a < Config.memSize) :
    (m.write a x).wf = true := Memory.wfFrom_write x h (by omega) ha

/-- A transfer inside the address space keeps the canonical form. -/
theorem Memory.wf_writeBytes {m : Memory} {base : Nat} (xs : List Byte) (h : m.wf = true)
    (ha : base + xs.length ≤ Config.memSize) : (m.writeBytes base xs).wf = true := by
  induction xs generalizing m base with
  | nil => exact h
  | cons x xs ih =>
    simp only [List.length_cons] at ha
    exact ih (Memory.wf_write x h (by omega)) (by omega)

/-- A transfer leaves every byte outside its range alone. -/
theorem Memory.read_writeBytes_outside (m : Memory) {base a : Nat} (xs : List Byte)
    (h : a < base ∨ base + xs.length ≤ a) : (m.writeBytes base xs).read a = m.read a := by
  induction xs generalizing m base with
  | nil => rfl
  | cons x xs ih =>
    simp only [List.length_cons] at h
    rw [Memory.writeBytes, ih _ (by omega), Memory.read_write_ne _ _ (by omega)]

/-- After a transfer byte j of the list is at `base + j`. -/
theorem Memory.read_writeBytes_inside {m : Memory} {base : Nat} (xs : List Byte) (h : m.wf = true)
    (ha : base + xs.length ≤ Config.memSize) (j : Nat) (hj : j < xs.length) :
    (m.writeBytes base xs).read (base + j) = xs[j] := by
  induction xs generalizing m base j with
  | nil => simp at hj
  | cons x xs ih =>
    simp only [List.length_cons] at ha hj
    have hw : (m.write base x).wf = true := Memory.wf_write x h (by omega)
    cases j with
    | zero =>
      rw [Memory.writeBytes, Memory.read_writeBytes_outside _ _ (by omega)]
      simpa using Memory.read_write_same base x h
    | succ j =>
      have := ih hw (by omega : base + 1 + xs.length ≤ Config.memSize) j (by omega)
      rw [Memory.writeBytes, show base + (j + 1) = base + 1 + j by omega]
      simpa using this

theorem Memory.readBytes_length (m : Memory) (base n : Nat) : (m.readBytes base n).length = n := by
  simp [Memory.readBytes, accessAddrs]

theorem Memory.readBytes_getElem (m : Memory) (base n j : Nat) (h : j < (m.readBytes base n).length) :
    (m.readBytes base n)[j] = m.read (base + j) := by
  simp [Memory.readBytes, accessAddrs]

/-! ### The checks -/

theorem mem_accessAddrs {base n a : Nat} : a ∈ accessAddrs base n ↔ base ≤ a ∧ a < base + n := by
  simp only [accessAddrs, List.mem_map, List.mem_range]
  constructor
  · rintro ⟨j, hj, rfl⟩; omega
  · intro h; exact ⟨a - base, by omega, by omega⟩

/-- The first address of an access with a property is in the access, has it, and no earlier one has. -/
theorem find_accessAddrs {base n a : Nat} {p : Nat → Bool} (h : (accessAddrs base n).find? p = some a) :
    base ≤ a ∧ a < base + n ∧ p a = true ∧ ∀ b, base ≤ b → b < a → p b = false := by
  have hm := mem_accessAddrs.1 (List.mem_of_find?_eq_some h)
  refine ⟨hm.1, hm.2, List.find?_some h, fun b hb hba => ?_⟩
  obtain ⟨_, as, bs, hsplit, hbefore⟩ := List.find?_eq_some_iff_append.1 h
  have hin : b ∈ accessAddrs base n := mem_accessAddrs.2 ⟨hb, by omega⟩
  rw [hsplit] at hin
  rcases List.mem_append.1 hin with h1 | h1
  · simpa using hbefore b h1
  · exfalso
    have hsorted : (accessAddrs base n).Pairwise (· < ·) := by
      simp only [accessAddrs, List.pairwise_map]
      exact List.pairwise_lt_range.imp (by omega)
    rw [hsplit] at hsorted
    have htail := (List.pairwise_append.1 hsorted).2.1
    rcases List.mem_cons.1 h1 with h2 | h2
    · omega
    · have := List.rel_of_pairwise_cons htail h2; omega

/-- `RangeOK(base, n)` in the spec's own form (20_memory.md R61): no address of the access is above 0xFFF. -/
theorem firstOutOfRange_eq_none {base n : Nat} :
    firstOutOfRange base n = none ↔ n = 0 ∨ base + n - 1 ≤ 0xFFF := by
  simp only [firstOutOfRange, List.find?_eq_none, mem_accessAddrs, Config.memSize, decide_eq_true_eq]
  constructor
  · intro h; rcases Nat.eq_zero_or_pos n with h0 | h0
    · exact .inl h0
    · have := h (base + n - 1) (by omega); omega
  · intro h a ha; omega

theorem firstOutOfRange_eq_some {base n a : Nat} (h : firstOutOfRange base n = some a) :
    a = max base 0x1000 ∧ a < base + n := by
  have := find_accessAddrs h
  simp only [Config.memSize, decide_eq_true_eq, decide_eq_false_iff_not] at this
  obtain ⟨h1, h2, h3, h4⟩ := this
  refine ⟨?_, h2⟩
  rcases Nat.lt_or_ge base 0x1000 with hb | hb
  · have := h4 0x1000
    omega
  · have := h4 base
    omega

theorem inFont_iff {a : Nat} : inFont a = true ↔ 0x050 ≤ a ∧ a ≤ 0x09F := by
  simp [inFont, Config.fontBase, Config.fontLast]

theorem checkRead_eq_none {base n : Nat} : checkRead base n = none ↔ n = 0 ∨ base + n - 1 ≤ 0xFFF := by
  simp [checkRead, firstOutOfRange_eq_none]

theorem firstProtected_eq_none {base n : Nat} :
    firstProtected base n = none ↔ ∀ a, base ≤ a → a < base + n → inFont a = false := by
  simp [firstProtected, List.find?_eq_none, mem_accessAddrs]

/-- A write check passes exactly where the whole access is inside memory and outside the font region. -/
theorem checkWrite_eq_none {base n : Nat} : checkWrite base n = none ↔
    (n = 0 ∨ base + n - 1 ≤ 0xFFF) ∧ ∀ a, base ≤ a → a < base + n → inFont a = false := by
  rw [← firstProtected_eq_none, ← checkRead_eq_none]
  unfold checkWrite
  cases checkRead base n <;> simp

/-! ### Memory at construction -/

theorem Memory.wf_construct (font : FontTable) : (Memory.construct font).wf = true :=
  Memory.wf_writeBytes _ rfl (by simp [Config.fontBase, Config.memSize])

/-- The font region holds the font (20_memory.md R64, 70_reset_and_hazards.md R255). -/
theorem Memory.read_construct_font (font : FontTable) (j : Nat) (h : j < 80) :
    (Memory.construct font).read (0x050 + j) = font[j] := by
  have := Memory.read_writeBytes_inside (m := []) (base := Config.fontBase) font.toList rfl
    (by simp [Config.fontBase, Config.memSize]) j (by simpa using h)
  simp only [Vector.getElem_toList] at this
  exact this

/-- Outside the font region every byte is 0 (70_reset_and_hazards.md R255). -/
theorem Memory.read_construct_outside (font : FontTable) {a : Nat} (h : a < 0x050 ∨ 0x09F < a) :
    (Memory.construct font).read a = 0 := by
  have hf : inFont a = false := by rw [← Bool.not_eq_true, inFont_iff]; omega
  rw [Memory.construct, Memory.read_writeBytes_outside _ _ (by simp [Config.fontBase]; omega)]
  simp [Memory.read, resetByte, hf]

/-- With the default font nothing is listed. -/
theorem Memory.construct_defaultFont : Memory.construct defaultFont = [] := by decide +kernel

end Sys2Proof.Machine
end

