-- ==== Sys2Proof/Laws/State.lean ====
section
/-! SUPPORT. Each field after each named update of State, true by rfl: proofs cite these and unfold no record update. -/

namespace Sys2Proof.Machine.State
variable (s : State)

/-! ### withV -/

@[simp] theorem withV_v (x : Vector Byte 16) : (s.withV x).v = x := rfl
@[simp] theorem withV_i (x : Vector Byte 16) : (s.withV x).i = s.i := rfl
@[simp] theorem withV_pc (x : Vector Byte 16) : (s.withV x).pc = s.pc := rfl
@[simp] theorem withV_sp (x : Vector Byte 16) : (s.withV x).sp = s.sp := rfl
@[simp] theorem withV_stack (x : Vector Byte 16) : (s.withV x).stack = s.stack := rfl
@[simp] theorem withV_dt (x : Vector Byte 16) : (s.withV x).dt = s.dt := rfl
@[simp] theorem withV_st (x : Vector Byte 16) : (s.withV x).st = s.st := rfl
@[simp] theorem withV_mem (x : Vector Byte 16) : (s.withV x).mem = s.mem := rfl
@[simp] theorem withV_fb (x : Vector Byte 16) : (s.withV x).fb = s.fb := rfl
@[simp] theorem withV_waitActive (x : Vector Byte 16) : (s.withV x).waitActive = s.waitActive := rfl
@[simp] theorem withV_waitReg (x : Vector Byte 16) : (s.withV x).waitReg = s.waitReg := rfl
@[simp] theorem withV_status (x : Vector Byte 16) : (s.withV x).status = s.status := rfl
@[simp] theorem withV_keyWaitMode (x : Vector Byte 16) : (s.withV x).keyWaitMode = s.keyWaitMode := rfl
@[simp] theorem withV_font (x : Vector Byte 16) : (s.withV x).font = s.font := rfl
@[simp] theorem withV_keys (x : Vector Byte 16) : (s.withV x).keys = s.keys := rfl
@[simp] theorem withV_rand (x : Vector Byte 16) : (s.withV x).rand = s.rand := rfl
@[simp] theorem withV_disp (x : Vector Byte 16) : (s.withV x).disp = s.disp := rfl
@[simp] theorem withV_event (x : Vector Byte 16) : (s.withV x).event = s.event := rfl
@[simp] theorem withV_faultLog (x : Vector Byte 16) : (s.withV x).faultLog = s.faultLog := rfl
@[simp] theorem withV_loadable (x : Vector Byte 16) : (s.withV x).loadable = s.loadable := rfl
@[simp] theorem withV_script (x : Vector Byte 16) : (s.withV x).script = s.script := rfl
@[simp] theorem withV_draws (x : Vector Byte 16) : (s.withV x).draws = s.draws := rfl

/-! ### withI -/

@[simp] theorem withI_v (x : Word) : (s.withI x).v = s.v := rfl
@[simp] theorem withI_i (x : Word) : (s.withI x).i = x := rfl
@[simp] theorem withI_pc (x : Word) : (s.withI x).pc = s.pc := rfl
@[simp] theorem withI_sp (x : Word) : (s.withI x).sp = s.sp := rfl
@[simp] theorem withI_stack (x : Word) : (s.withI x).stack = s.stack := rfl
@[simp] theorem withI_dt (x : Word) : (s.withI x).dt = s.dt := rfl
@[simp] theorem withI_st (x : Word) : (s.withI x).st = s.st := rfl
@[simp] theorem withI_mem (x : Word) : (s.withI x).mem = s.mem := rfl
@[simp] theorem withI_fb (x : Word) : (s.withI x).fb = s.fb := rfl
@[simp] theorem withI_waitActive (x : Word) : (s.withI x).waitActive = s.waitActive := rfl
@[simp] theorem withI_waitReg (x : Word) : (s.withI x).waitReg = s.waitReg := rfl
@[simp] theorem withI_status (x : Word) : (s.withI x).status = s.status := rfl
@[simp] theorem withI_keyWaitMode (x : Word) : (s.withI x).keyWaitMode = s.keyWaitMode := rfl
@[simp] theorem withI_font (x : Word) : (s.withI x).font = s.font := rfl
@[simp] theorem withI_keys (x : Word) : (s.withI x).keys = s.keys := rfl
@[simp] theorem withI_rand (x : Word) : (s.withI x).rand = s.rand := rfl
@[simp] theorem withI_disp (x : Word) : (s.withI x).disp = s.disp := rfl
@[simp] theorem withI_event (x : Word) : (s.withI x).event = s.event := rfl
@[simp] theorem withI_faultLog (x : Word) : (s.withI x).faultLog = s.faultLog := rfl
@[simp] theorem withI_loadable (x : Word) : (s.withI x).loadable = s.loadable := rfl
@[simp] theorem withI_script (x : Word) : (s.withI x).script = s.script := rfl
@[simp] theorem withI_draws (x : Word) : (s.withI x).draws = s.draws := rfl

/-! ### withPc -/

@[simp] theorem withPc_v (x : Word) : (s.withPc x).v = s.v := rfl
@[simp] theorem withPc_i (x : Word) : (s.withPc x).i = s.i := rfl
@[simp] theorem withPc_pc (x : Word) : (s.withPc x).pc = x := rfl
@[simp] theorem withPc_sp (x : Word) : (s.withPc x).sp = s.sp := rfl
@[simp] theorem withPc_stack (x : Word) : (s.withPc x).stack = s.stack := rfl
@[simp] theorem withPc_dt (x : Word) : (s.withPc x).dt = s.dt := rfl
@[simp] theorem withPc_st (x : Word) : (s.withPc x).st = s.st := rfl
@[simp] theorem withPc_mem (x : Word) : (s.withPc x).mem = s.mem := rfl
@[simp] theorem withPc_fb (x : Word) : (s.withPc x).fb = s.fb := rfl
@[simp] theorem withPc_waitActive (x : Word) : (s.withPc x).waitActive = s.waitActive := rfl
@[simp] theorem withPc_waitReg (x : Word) : (s.withPc x).waitReg = s.waitReg := rfl
@[simp] theorem withPc_status (x : Word) : (s.withPc x).status = s.status := rfl
@[simp] theorem withPc_keyWaitMode (x : Word) : (s.withPc x).keyWaitMode = s.keyWaitMode := rfl
@[simp] theorem withPc_font (x : Word) : (s.withPc x).font = s.font := rfl
@[simp] theorem withPc_keys (x : Word) : (s.withPc x).keys = s.keys := rfl
@[simp] theorem withPc_rand (x : Word) : (s.withPc x).rand = s.rand := rfl
@[simp] theorem withPc_disp (x : Word) : (s.withPc x).disp = s.disp := rfl
@[simp] theorem withPc_event (x : Word) : (s.withPc x).event = s.event := rfl
@[simp] theorem withPc_faultLog (x : Word) : (s.withPc x).faultLog = s.faultLog := rfl
@[simp] theorem withPc_loadable (x : Word) : (s.withPc x).loadable = s.loadable := rfl
@[simp] theorem withPc_script (x : Word) : (s.withPc x).script = s.script := rfl
@[simp] theorem withPc_draws (x : Word) : (s.withPc x).draws = s.draws := rfl

/-! ### withStack -/

@[simp] theorem withStack_v (d : Fin 17) (x : Vector Word 16) : (s.withStack d x).v = s.v := rfl
@[simp] theorem withStack_i (d : Fin 17) (x : Vector Word 16) : (s.withStack d x).i = s.i := rfl
@[simp] theorem withStack_pc (d : Fin 17) (x : Vector Word 16) : (s.withStack d x).pc = s.pc := rfl
@[simp] theorem withStack_sp (d : Fin 17) (x : Vector Word 16) : (s.withStack d x).sp = d := rfl
@[simp] theorem withStack_stack (d : Fin 17) (x : Vector Word 16) : (s.withStack d x).stack = x := rfl
@[simp] theorem withStack_dt (d : Fin 17) (x : Vector Word 16) : (s.withStack d x).dt = s.dt := rfl
@[simp] theorem withStack_st (d : Fin 17) (x : Vector Word 16) : (s.withStack d x).st = s.st := rfl
@[simp] theorem withStack_mem (d : Fin 17) (x : Vector Word 16) : (s.withStack d x).mem = s.mem := rfl
@[simp] theorem withStack_fb (d : Fin 17) (x : Vector Word 16) : (s.withStack d x).fb = s.fb := rfl
@[simp] theorem withStack_waitActive (d : Fin 17) (x : Vector Word 16) : (s.withStack d x).waitActive = s.waitActive := rfl
@[simp] theorem withStack_waitReg (d : Fin 17) (x : Vector Word 16) : (s.withStack d x).waitReg = s.waitReg := rfl
@[simp] theorem withStack_status (d : Fin 17) (x : Vector Word 16) : (s.withStack d x).status = s.status := rfl
@[simp] theorem withStack_keyWaitMode (d : Fin 17) (x : Vector Word 16) : (s.withStack d x).keyWaitMode = s.keyWaitMode := rfl
@[simp] theorem withStack_font (d : Fin 17) (x : Vector Word 16) : (s.withStack d x).font = s.font := rfl
@[simp] theorem withStack_keys (d : Fin 17) (x : Vector Word 16) : (s.withStack d x).keys = s.keys := rfl
@[simp] theorem withStack_rand (d : Fin 17) (x : Vector Word 16) : (s.withStack d x).rand = s.rand := rfl
@[simp] theorem withStack_disp (d : Fin 17) (x : Vector Word 16) : (s.withStack d x).disp = s.disp := rfl
@[simp] theorem withStack_event (d : Fin 17) (x : Vector Word 16) : (s.withStack d x).event = s.event := rfl
@[simp] theorem withStack_faultLog (d : Fin 17) (x : Vector Word 16) : (s.withStack d x).faultLog = s.faultLog := rfl
@[simp] theorem withStack_loadable (d : Fin 17) (x : Vector Word 16) : (s.withStack d x).loadable = s.loadable := rfl
@[simp] theorem withStack_script (d : Fin 17) (x : Vector Word 16) : (s.withStack d x).script = s.script := rfl
@[simp] theorem withStack_draws (d : Fin 17) (x : Vector Word 16) : (s.withStack d x).draws = s.draws := rfl

/-! ### withTimers -/

@[simp] theorem withTimers_v (d t : Byte) : (s.withTimers d t).v = s.v := rfl
@[simp] theorem withTimers_i (d t : Byte) : (s.withTimers d t).i = s.i := rfl
@[simp] theorem withTimers_pc (d t : Byte) : (s.withTimers d t).pc = s.pc := rfl
@[simp] theorem withTimers_sp (d t : Byte) : (s.withTimers d t).sp = s.sp := rfl
@[simp] theorem withTimers_stack (d t : Byte) : (s.withTimers d t).stack = s.stack := rfl
@[simp] theorem withTimers_dt (d t : Byte) : (s.withTimers d t).dt = d := rfl
@[simp] theorem withTimers_st (d t : Byte) : (s.withTimers d t).st = t := rfl
@[simp] theorem withTimers_mem (d t : Byte) : (s.withTimers d t).mem = s.mem := rfl
@[simp] theorem withTimers_fb (d t : Byte) : (s.withTimers d t).fb = s.fb := rfl
@[simp] theorem withTimers_waitActive (d t : Byte) : (s.withTimers d t).waitActive = s.waitActive := rfl
@[simp] theorem withTimers_waitReg (d t : Byte) : (s.withTimers d t).waitReg = s.waitReg := rfl
@[simp] theorem withTimers_status (d t : Byte) : (s.withTimers d t).status = s.status := rfl
@[simp] theorem withTimers_keyWaitMode (d t : Byte) : (s.withTimers d t).keyWaitMode = s.keyWaitMode := rfl
@[simp] theorem withTimers_font (d t : Byte) : (s.withTimers d t).font = s.font := rfl
@[simp] theorem withTimers_keys (d t : Byte) : (s.withTimers d t).keys = s.keys := rfl
@[simp] theorem withTimers_rand (d t : Byte) : (s.withTimers d t).rand = s.rand := rfl
@[simp] theorem withTimers_disp (d t : Byte) : (s.withTimers d t).disp = s.disp := rfl
@[simp] theorem withTimers_event (d t : Byte) : (s.withTimers d t).event = s.event := rfl
@[simp] theorem withTimers_faultLog (d t : Byte) : (s.withTimers d t).faultLog = s.faultLog := rfl
@[simp] theorem withTimers_loadable (d t : Byte) : (s.withTimers d t).loadable = s.loadable := rfl
@[simp] theorem withTimers_script (d t : Byte) : (s.withTimers d t).script = s.script := rfl
@[simp] theorem withTimers_draws (d t : Byte) : (s.withTimers d t).draws = s.draws := rfl

/-! ### withMem -/

@[simp] theorem withMem_v (x : Memory) : (s.withMem x).v = s.v := rfl
@[simp] theorem withMem_i (x : Memory) : (s.withMem x).i = s.i := rfl
@[simp] theorem withMem_pc (x : Memory) : (s.withMem x).pc = s.pc := rfl
@[simp] theorem withMem_sp (x : Memory) : (s.withMem x).sp = s.sp := rfl
@[simp] theorem withMem_stack (x : Memory) : (s.withMem x).stack = s.stack := rfl
@[simp] theorem withMem_dt (x : Memory) : (s.withMem x).dt = s.dt := rfl
@[simp] theorem withMem_st (x : Memory) : (s.withMem x).st = s.st := rfl
@[simp] theorem withMem_mem (x : Memory) : (s.withMem x).mem = x := rfl
@[simp] theorem withMem_fb (x : Memory) : (s.withMem x).fb = s.fb := rfl
@[simp] theorem withMem_waitActive (x : Memory) : (s.withMem x).waitActive = s.waitActive := rfl
@[simp] theorem withMem_waitReg (x : Memory) : (s.withMem x).waitReg = s.waitReg := rfl
@[simp] theorem withMem_status (x : Memory) : (s.withMem x).status = s.status := rfl
@[simp] theorem withMem_keyWaitMode (x : Memory) : (s.withMem x).keyWaitMode = s.keyWaitMode := rfl
@[simp] theorem withMem_font (x : Memory) : (s.withMem x).font = s.font := rfl
@[simp] theorem withMem_keys (x : Memory) : (s.withMem x).keys = s.keys := rfl
@[simp] theorem withMem_rand (x : Memory) : (s.withMem x).rand = s.rand := rfl
@[simp] theorem withMem_disp (x : Memory) : (s.withMem x).disp = s.disp := rfl
@[simp] theorem withMem_event (x : Memory) : (s.withMem x).event = s.event := rfl
@[simp] theorem withMem_faultLog (x : Memory) : (s.withMem x).faultLog = s.faultLog := rfl
@[simp] theorem withMem_loadable (x : Memory) : (s.withMem x).loadable = s.loadable := rfl
@[simp] theorem withMem_script (x : Memory) : (s.withMem x).script = s.script := rfl
@[simp] theorem withMem_draws (x : Memory) : (s.withMem x).draws = s.draws := rfl

/-! ### withFb -/

@[simp] theorem withFb_v (x : Framebuffer) : (s.withFb x).v = s.v := rfl
@[simp] theorem withFb_i (x : Framebuffer) : (s.withFb x).i = s.i := rfl
@[simp] theorem withFb_pc (x : Framebuffer) : (s.withFb x).pc = s.pc := rfl
@[simp] theorem withFb_sp (x : Framebuffer) : (s.withFb x).sp = s.sp := rfl
@[simp] theorem withFb_stack (x : Framebuffer) : (s.withFb x).stack = s.stack := rfl
@[simp] theorem withFb_dt (x : Framebuffer) : (s.withFb x).dt = s.dt := rfl
@[simp] theorem withFb_st (x : Framebuffer) : (s.withFb x).st = s.st := rfl
@[simp] theorem withFb_mem (x : Framebuffer) : (s.withFb x).mem = s.mem := rfl
@[simp] theorem withFb_fb (x : Framebuffer) : (s.withFb x).fb = x := rfl
@[simp] theorem withFb_waitActive (x : Framebuffer) : (s.withFb x).waitActive = s.waitActive := rfl
@[simp] theorem withFb_waitReg (x : Framebuffer) : (s.withFb x).waitReg = s.waitReg := rfl
@[simp] theorem withFb_status (x : Framebuffer) : (s.withFb x).status = s.status := rfl
@[simp] theorem withFb_keyWaitMode (x : Framebuffer) : (s.withFb x).keyWaitMode = s.keyWaitMode := rfl
@[simp] theorem withFb_font (x : Framebuffer) : (s.withFb x).font = s.font := rfl
@[simp] theorem withFb_keys (x : Framebuffer) : (s.withFb x).keys = s.keys := rfl
@[simp] theorem withFb_rand (x : Framebuffer) : (s.withFb x).rand = s.rand := rfl
@[simp] theorem withFb_disp (x : Framebuffer) : (s.withFb x).disp = s.disp := rfl
@[simp] theorem withFb_event (x : Framebuffer) : (s.withFb x).event = s.event := rfl
@[simp] theorem withFb_faultLog (x : Framebuffer) : (s.withFb x).faultLog = s.faultLog := rfl
@[simp] theorem withFb_loadable (x : Framebuffer) : (s.withFb x).loadable = s.loadable := rfl
@[simp] theorem withFb_script (x : Framebuffer) : (s.withFb x).script = s.script := rfl
@[simp] theorem withFb_draws (x : Framebuffer) : (s.withFb x).draws = s.draws := rfl

/-! ### withWait -/

@[simp] theorem withWait_v (b : Bool) (r : Reg) : (s.withWait b r).v = s.v := rfl
@[simp] theorem withWait_i (b : Bool) (r : Reg) : (s.withWait b r).i = s.i := rfl
@[simp] theorem withWait_pc (b : Bool) (r : Reg) : (s.withWait b r).pc = s.pc := rfl
@[simp] theorem withWait_sp (b : Bool) (r : Reg) : (s.withWait b r).sp = s.sp := rfl
@[simp] theorem withWait_stack (b : Bool) (r : Reg) : (s.withWait b r).stack = s.stack := rfl
@[simp] theorem withWait_dt (b : Bool) (r : Reg) : (s.withWait b r).dt = s.dt := rfl
@[simp] theorem withWait_st (b : Bool) (r : Reg) : (s.withWait b r).st = s.st := rfl
@[simp] theorem withWait_mem (b : Bool) (r : Reg) : (s.withWait b r).mem = s.mem := rfl
@[simp] theorem withWait_fb (b : Bool) (r : Reg) : (s.withWait b r).fb = s.fb := rfl
@[simp] theorem withWait_waitActive (b : Bool) (r : Reg) : (s.withWait b r).waitActive = b := rfl
@[simp] theorem withWait_waitReg (b : Bool) (r : Reg) : (s.withWait b r).waitReg = r := rfl
@[simp] theorem withWait_status (b : Bool) (r : Reg) : (s.withWait b r).status = s.status := rfl
@[simp] theorem withWait_keyWaitMode (b : Bool) (r : Reg) : (s.withWait b r).keyWaitMode = s.keyWaitMode := rfl
@[simp] theorem withWait_font (b : Bool) (r : Reg) : (s.withWait b r).font = s.font := rfl
@[simp] theorem withWait_keys (b : Bool) (r : Reg) : (s.withWait b r).keys = s.keys := rfl
@[simp] theorem withWait_rand (b : Bool) (r : Reg) : (s.withWait b r).rand = s.rand := rfl
@[simp] theorem withWait_disp (b : Bool) (r : Reg) : (s.withWait b r).disp = s.disp := rfl
@[simp] theorem withWait_event (b : Bool) (r : Reg) : (s.withWait b r).event = s.event := rfl
@[simp] theorem withWait_faultLog (b : Bool) (r : Reg) : (s.withWait b r).faultLog = s.faultLog := rfl
@[simp] theorem withWait_loadable (b : Bool) (r : Reg) : (s.withWait b r).loadable = s.loadable := rfl
@[simp] theorem withWait_script (b : Bool) (r : Reg) : (s.withWait b r).script = s.script := rfl
@[simp] theorem withWait_draws (b : Bool) (r : Reg) : (s.withWait b r).draws = s.draws := rfl

/-! ### withStatus -/

@[simp] theorem withStatus_v (x : Status) : (s.withStatus x).v = s.v := rfl
@[simp] theorem withStatus_i (x : Status) : (s.withStatus x).i = s.i := rfl
@[simp] theorem withStatus_pc (x : Status) : (s.withStatus x).pc = s.pc := rfl
@[simp] theorem withStatus_sp (x : Status) : (s.withStatus x).sp = s.sp := rfl
@[simp] theorem withStatus_stack (x : Status) : (s.withStatus x).stack = s.stack := rfl
@[simp] theorem withStatus_dt (x : Status) : (s.withStatus x).dt = s.dt := rfl
@[simp] theorem withStatus_st (x : Status) : (s.withStatus x).st = s.st := rfl
@[simp] theorem withStatus_mem (x : Status) : (s.withStatus x).mem = s.mem := rfl
@[simp] theorem withStatus_fb (x : Status) : (s.withStatus x).fb = s.fb := rfl
@[simp] theorem withStatus_waitActive (x : Status) : (s.withStatus x).waitActive = s.waitActive := rfl
@[simp] theorem withStatus_waitReg (x : Status) : (s.withStatus x).waitReg = s.waitReg := rfl
@[simp] theorem withStatus_status (x : Status) : (s.withStatus x).status = x := rfl
@[simp] theorem withStatus_keyWaitMode (x : Status) : (s.withStatus x).keyWaitMode = s.keyWaitMode := rfl
@[simp] theorem withStatus_font (x : Status) : (s.withStatus x).font = s.font := rfl
@[simp] theorem withStatus_keys (x : Status) : (s.withStatus x).keys = s.keys := rfl
@[simp] theorem withStatus_rand (x : Status) : (s.withStatus x).rand = s.rand := rfl
@[simp] theorem withStatus_disp (x : Status) : (s.withStatus x).disp = s.disp := rfl
@[simp] theorem withStatus_event (x : Status) : (s.withStatus x).event = s.event := rfl
@[simp] theorem withStatus_faultLog (x : Status) : (s.withStatus x).faultLog = s.faultLog := rfl
@[simp] theorem withStatus_loadable (x : Status) : (s.withStatus x).loadable = s.loadable := rfl
@[simp] theorem withStatus_script (x : Status) : (s.withStatus x).script = s.script := rfl
@[simp] theorem withStatus_draws (x : Status) : (s.withStatus x).draws = s.draws := rfl

/-! ### withInputs -/

@[simp] theorem withInputs_v (k : Keys) (r : Byte) : (s.withInputs k r).v = s.v := rfl
@[simp] theorem withInputs_i (k : Keys) (r : Byte) : (s.withInputs k r).i = s.i := rfl
@[simp] theorem withInputs_pc (k : Keys) (r : Byte) : (s.withInputs k r).pc = s.pc := rfl
@[simp] theorem withInputs_sp (k : Keys) (r : Byte) : (s.withInputs k r).sp = s.sp := rfl
@[simp] theorem withInputs_stack (k : Keys) (r : Byte) : (s.withInputs k r).stack = s.stack := rfl
@[simp] theorem withInputs_dt (k : Keys) (r : Byte) : (s.withInputs k r).dt = s.dt := rfl
@[simp] theorem withInputs_st (k : Keys) (r : Byte) : (s.withInputs k r).st = s.st := rfl
@[simp] theorem withInputs_mem (k : Keys) (r : Byte) : (s.withInputs k r).mem = s.mem := rfl
@[simp] theorem withInputs_fb (k : Keys) (r : Byte) : (s.withInputs k r).fb = s.fb := rfl
@[simp] theorem withInputs_waitActive (k : Keys) (r : Byte) : (s.withInputs k r).waitActive = s.waitActive := rfl
@[simp] theorem withInputs_waitReg (k : Keys) (r : Byte) : (s.withInputs k r).waitReg = s.waitReg := rfl
@[simp] theorem withInputs_status (k : Keys) (r : Byte) : (s.withInputs k r).status = s.status := rfl
@[simp] theorem withInputs_keyWaitMode (k : Keys) (r : Byte) : (s.withInputs k r).keyWaitMode = s.keyWaitMode := rfl
@[simp] theorem withInputs_font (k : Keys) (r : Byte) : (s.withInputs k r).font = s.font := rfl
@[simp] theorem withInputs_keys (k : Keys) (r : Byte) : (s.withInputs k r).keys = k := rfl
@[simp] theorem withInputs_rand (k : Keys) (r : Byte) : (s.withInputs k r).rand = r := rfl
@[simp] theorem withInputs_disp (k : Keys) (r : Byte) : (s.withInputs k r).disp = s.disp := rfl
@[simp] theorem withInputs_event (k : Keys) (r : Byte) : (s.withInputs k r).event = s.event := rfl
@[simp] theorem withInputs_faultLog (k : Keys) (r : Byte) : (s.withInputs k r).faultLog = s.faultLog := rfl
@[simp] theorem withInputs_loadable (k : Keys) (r : Byte) : (s.withInputs k r).loadable = s.loadable := rfl
@[simp] theorem withInputs_script (k : Keys) (r : Byte) : (s.withInputs k r).script = s.script := rfl
@[simp] theorem withInputs_draws (k : Keys) (r : Byte) : (s.withInputs k r).draws = s.draws := rfl

/-! ### withDisp -/

@[simp] theorem withDisp_v (x : DisplayInstr) : (s.withDisp x).v = s.v := rfl
@[simp] theorem withDisp_i (x : DisplayInstr) : (s.withDisp x).i = s.i := rfl
@[simp] theorem withDisp_pc (x : DisplayInstr) : (s.withDisp x).pc = s.pc := rfl
@[simp] theorem withDisp_sp (x : DisplayInstr) : (s.withDisp x).sp = s.sp := rfl
@[simp] theorem withDisp_stack (x : DisplayInstr) : (s.withDisp x).stack = s.stack := rfl
@[simp] theorem withDisp_dt (x : DisplayInstr) : (s.withDisp x).dt = s.dt := rfl
@[simp] theorem withDisp_st (x : DisplayInstr) : (s.withDisp x).st = s.st := rfl
@[simp] theorem withDisp_mem (x : DisplayInstr) : (s.withDisp x).mem = s.mem := rfl
@[simp] theorem withDisp_fb (x : DisplayInstr) : (s.withDisp x).fb = s.fb := rfl
@[simp] theorem withDisp_waitActive (x : DisplayInstr) : (s.withDisp x).waitActive = s.waitActive := rfl
@[simp] theorem withDisp_waitReg (x : DisplayInstr) : (s.withDisp x).waitReg = s.waitReg := rfl
@[simp] theorem withDisp_status (x : DisplayInstr) : (s.withDisp x).status = s.status := rfl
@[simp] theorem withDisp_keyWaitMode (x : DisplayInstr) : (s.withDisp x).keyWaitMode = s.keyWaitMode := rfl
@[simp] theorem withDisp_font (x : DisplayInstr) : (s.withDisp x).font = s.font := rfl
@[simp] theorem withDisp_keys (x : DisplayInstr) : (s.withDisp x).keys = s.keys := rfl
@[simp] theorem withDisp_rand (x : DisplayInstr) : (s.withDisp x).rand = s.rand := rfl
@[simp] theorem withDisp_disp (x : DisplayInstr) : (s.withDisp x).disp = x := rfl
@[simp] theorem withDisp_event (x : DisplayInstr) : (s.withDisp x).event = s.event := rfl
@[simp] theorem withDisp_faultLog (x : DisplayInstr) : (s.withDisp x).faultLog = s.faultLog := rfl
@[simp] theorem withDisp_loadable (x : DisplayInstr) : (s.withDisp x).loadable = s.loadable := rfl
@[simp] theorem withDisp_script (x : DisplayInstr) : (s.withDisp x).script = s.script := rfl
@[simp] theorem withDisp_draws (x : DisplayInstr) : (s.withDisp x).draws = s.draws := rfl

/-! ### withEvent -/

@[simp] theorem withEvent_v (x : Event) : (s.withEvent x).v = s.v := rfl
@[simp] theorem withEvent_i (x : Event) : (s.withEvent x).i = s.i := rfl
@[simp] theorem withEvent_pc (x : Event) : (s.withEvent x).pc = s.pc := rfl
@[simp] theorem withEvent_sp (x : Event) : (s.withEvent x).sp = s.sp := rfl
@[simp] theorem withEvent_stack (x : Event) : (s.withEvent x).stack = s.stack := rfl
@[simp] theorem withEvent_dt (x : Event) : (s.withEvent x).dt = s.dt := rfl
@[simp] theorem withEvent_st (x : Event) : (s.withEvent x).st = s.st := rfl
@[simp] theorem withEvent_mem (x : Event) : (s.withEvent x).mem = s.mem := rfl
@[simp] theorem withEvent_fb (x : Event) : (s.withEvent x).fb = s.fb := rfl
@[simp] theorem withEvent_waitActive (x : Event) : (s.withEvent x).waitActive = s.waitActive := rfl
@[simp] theorem withEvent_waitReg (x : Event) : (s.withEvent x).waitReg = s.waitReg := rfl
@[simp] theorem withEvent_status (x : Event) : (s.withEvent x).status = s.status := rfl
@[simp] theorem withEvent_keyWaitMode (x : Event) : (s.withEvent x).keyWaitMode = s.keyWaitMode := rfl
@[simp] theorem withEvent_font (x : Event) : (s.withEvent x).font = s.font := rfl
@[simp] theorem withEvent_keys (x : Event) : (s.withEvent x).keys = s.keys := rfl
@[simp] theorem withEvent_rand (x : Event) : (s.withEvent x).rand = s.rand := rfl
@[simp] theorem withEvent_disp (x : Event) : (s.withEvent x).disp = s.disp := rfl
@[simp] theorem withEvent_event (x : Event) : (s.withEvent x).event = x := rfl
@[simp] theorem withEvent_faultLog (x : Event) : (s.withEvent x).faultLog = if x = .ok then s.faultLog else s.faultLog ++ [x] := rfl
@[simp] theorem withEvent_loadable (x : Event) : (s.withEvent x).loadable = s.loadable := rfl
@[simp] theorem withEvent_script (x : Event) : (s.withEvent x).script = s.script := rfl
@[simp] theorem withEvent_draws (x : Event) : (s.withEvent x).draws = s.draws := rfl

/-! ### withLoadable -/

@[simp] theorem withLoadable_v (x : Bool) : (s.withLoadable x).v = s.v := rfl
@[simp] theorem withLoadable_i (x : Bool) : (s.withLoadable x).i = s.i := rfl
@[simp] theorem withLoadable_pc (x : Bool) : (s.withLoadable x).pc = s.pc := rfl
@[simp] theorem withLoadable_sp (x : Bool) : (s.withLoadable x).sp = s.sp := rfl
@[simp] theorem withLoadable_stack (x : Bool) : (s.withLoadable x).stack = s.stack := rfl
@[simp] theorem withLoadable_dt (x : Bool) : (s.withLoadable x).dt = s.dt := rfl
@[simp] theorem withLoadable_st (x : Bool) : (s.withLoadable x).st = s.st := rfl
@[simp] theorem withLoadable_mem (x : Bool) : (s.withLoadable x).mem = s.mem := rfl
@[simp] theorem withLoadable_fb (x : Bool) : (s.withLoadable x).fb = s.fb := rfl
@[simp] theorem withLoadable_waitActive (x : Bool) : (s.withLoadable x).waitActive = s.waitActive := rfl
@[simp] theorem withLoadable_waitReg (x : Bool) : (s.withLoadable x).waitReg = s.waitReg := rfl
@[simp] theorem withLoadable_status (x : Bool) : (s.withLoadable x).status = s.status := rfl
@[simp] theorem withLoadable_keyWaitMode (x : Bool) : (s.withLoadable x).keyWaitMode = s.keyWaitMode := rfl
@[simp] theorem withLoadable_font (x : Bool) : (s.withLoadable x).font = s.font := rfl
@[simp] theorem withLoadable_keys (x : Bool) : (s.withLoadable x).keys = s.keys := rfl
@[simp] theorem withLoadable_rand (x : Bool) : (s.withLoadable x).rand = s.rand := rfl
@[simp] theorem withLoadable_disp (x : Bool) : (s.withLoadable x).disp = s.disp := rfl
@[simp] theorem withLoadable_event (x : Bool) : (s.withLoadable x).event = s.event := rfl
@[simp] theorem withLoadable_faultLog (x : Bool) : (s.withLoadable x).faultLog = s.faultLog := rfl
@[simp] theorem withLoadable_loadable (x : Bool) : (s.withLoadable x).loadable = x := rfl
@[simp] theorem withLoadable_script (x : Bool) : (s.withLoadable x).script = s.script := rfl
@[simp] theorem withLoadable_draws (x : Bool) : (s.withLoadable x).draws = s.draws := rfl

/-! ### withScript -/

@[simp] theorem withScript_v (x : List Transaction) : (s.withScript x).v = s.v := rfl
@[simp] theorem withScript_i (x : List Transaction) : (s.withScript x).i = s.i := rfl
@[simp] theorem withScript_pc (x : List Transaction) : (s.withScript x).pc = s.pc := rfl
@[simp] theorem withScript_sp (x : List Transaction) : (s.withScript x).sp = s.sp := rfl
@[simp] theorem withScript_stack (x : List Transaction) : (s.withScript x).stack = s.stack := rfl
@[simp] theorem withScript_dt (x : List Transaction) : (s.withScript x).dt = s.dt := rfl
@[simp] theorem withScript_st (x : List Transaction) : (s.withScript x).st = s.st := rfl
@[simp] theorem withScript_mem (x : List Transaction) : (s.withScript x).mem = s.mem := rfl
@[simp] theorem withScript_fb (x : List Transaction) : (s.withScript x).fb = s.fb := rfl
@[simp] theorem withScript_waitActive (x : List Transaction) : (s.withScript x).waitActive = s.waitActive := rfl
@[simp] theorem withScript_waitReg (x : List Transaction) : (s.withScript x).waitReg = s.waitReg := rfl
@[simp] theorem withScript_status (x : List Transaction) : (s.withScript x).status = s.status := rfl
@[simp] theorem withScript_keyWaitMode (x : List Transaction) : (s.withScript x).keyWaitMode = s.keyWaitMode := rfl
@[simp] theorem withScript_font (x : List Transaction) : (s.withScript x).font = s.font := rfl
@[simp] theorem withScript_keys (x : List Transaction) : (s.withScript x).keys = s.keys := rfl
@[simp] theorem withScript_rand (x : List Transaction) : (s.withScript x).rand = s.rand := rfl
@[simp] theorem withScript_disp (x : List Transaction) : (s.withScript x).disp = s.disp := rfl
@[simp] theorem withScript_event (x : List Transaction) : (s.withScript x).event = s.event := rfl
@[simp] theorem withScript_faultLog (x : List Transaction) : (s.withScript x).faultLog = s.faultLog := rfl
@[simp] theorem withScript_loadable (x : List Transaction) : (s.withScript x).loadable = s.loadable := rfl
@[simp] theorem withScript_script (x : List Transaction) : (s.withScript x).script = x := rfl
@[simp] theorem withScript_draws (x : List Transaction) : (s.withScript x).draws = s.draws := rfl

/-! ### withDraws -/

@[simp] theorem withDraws_v (x : Nat) : (s.withDraws x).v = s.v := rfl
@[simp] theorem withDraws_i (x : Nat) : (s.withDraws x).i = s.i := rfl
@[simp] theorem withDraws_pc (x : Nat) : (s.withDraws x).pc = s.pc := rfl
@[simp] theorem withDraws_sp (x : Nat) : (s.withDraws x).sp = s.sp := rfl
@[simp] theorem withDraws_stack (x : Nat) : (s.withDraws x).stack = s.stack := rfl
@[simp] theorem withDraws_dt (x : Nat) : (s.withDraws x).dt = s.dt := rfl
@[simp] theorem withDraws_st (x : Nat) : (s.withDraws x).st = s.st := rfl
@[simp] theorem withDraws_mem (x : Nat) : (s.withDraws x).mem = s.mem := rfl
@[simp] theorem withDraws_fb (x : Nat) : (s.withDraws x).fb = s.fb := rfl
@[simp] theorem withDraws_waitActive (x : Nat) : (s.withDraws x).waitActive = s.waitActive := rfl
@[simp] theorem withDraws_waitReg (x : Nat) : (s.withDraws x).waitReg = s.waitReg := rfl
@[simp] theorem withDraws_status (x : Nat) : (s.withDraws x).status = s.status := rfl
@[simp] theorem withDraws_keyWaitMode (x : Nat) : (s.withDraws x).keyWaitMode = s.keyWaitMode := rfl
@[simp] theorem withDraws_font (x : Nat) : (s.withDraws x).font = s.font := rfl
@[simp] theorem withDraws_keys (x : Nat) : (s.withDraws x).keys = s.keys := rfl
@[simp] theorem withDraws_rand (x : Nat) : (s.withDraws x).rand = s.rand := rfl
@[simp] theorem withDraws_disp (x : Nat) : (s.withDraws x).disp = s.disp := rfl
@[simp] theorem withDraws_event (x : Nat) : (s.withDraws x).event = s.event := rfl
@[simp] theorem withDraws_faultLog (x : Nat) : (s.withDraws x).faultLog = s.faultLog := rfl
@[simp] theorem withDraws_loadable (x : Nat) : (s.withDraws x).loadable = s.loadable := rfl
@[simp] theorem withDraws_script (x : Nat) : (s.withDraws x).script = s.script := rfl
@[simp] theorem withDraws_draws (x : Nat) : (s.withDraws x).draws = x := rfl

end Sys2Proof.Machine.State
end

