-- ==== Sys2Proof/Laws/Ops.lean ====
section
/-! SUPPORT. Each shared operation once: what it answers and what it leaves alone. Later proofs cite these and unfold no
operation. -/

namespace Sys2Proof.Machine
variable (s : State)

/-! ### Registers -/

@[simp] theorem State.reg_withI (x : Word) (r : Reg) : (s.withI x).reg r = s.reg r := rfl
@[simp] theorem State.reg_withPc (x : Word) (r : Reg) : (s.withPc x).reg r = s.reg r := rfl
@[simp] theorem State.reg_withStack (d : Fin 17) (x : Vector Word 16) (r : Reg) : (s.withStack d x).reg r = s.reg r := rfl
@[simp] theorem State.reg_withTimers (d t : Byte) (r : Reg) : (s.withTimers d t).reg r = s.reg r := rfl
@[simp] theorem State.reg_withMem (x : Memory) (r : Reg) : (s.withMem x).reg r = s.reg r := rfl
@[simp] theorem State.reg_withFb (x : Framebuffer) (r : Reg) : (s.withFb x).reg r = s.reg r := rfl
@[simp] theorem State.reg_withWait (b : Bool) (q r : Reg) : (s.withWait b q).reg r = s.reg r := rfl
@[simp] theorem State.reg_withStatus (x : Status) (r : Reg) : (s.withStatus x).reg r = s.reg r := rfl
@[simp] theorem State.reg_withInputs (k : Keys) (x : Byte) (r : Reg) : (s.withInputs k x).reg r = s.reg r := rfl
@[simp] theorem State.reg_withDisp (x : DisplayInstr) (r : Reg) : (s.withDisp x).reg r = s.reg r := rfl
@[simp] theorem State.reg_withEvent (x : Event) (r : Reg) : (s.withEvent x).reg r = s.reg r := rfl
@[simp] theorem State.reg_withLoadable (x : Bool) (r : Reg) : (s.withLoadable x).reg r = s.reg r := rfl
@[simp] theorem State.reg_withScript (x : List Transaction) (r : Reg) : (s.withScript x).reg r = s.reg r := rfl
@[simp] theorem State.reg_withDraws (x : Nat) (r : Reg) : (s.withDraws x).reg r = s.reg r := rfl

theorem State.reg_setReg (r r' : Reg) (x : Byte) : (s.setReg r x).reg r' = if r' = r then x else s.reg r' := by
  by_cases h : r' = r
  · subst h; simp [State.reg, State.setReg, Vector.get_eq_getElem]
  · have : r.val ≠ r'.val := fun e => h (Fin.ext e.symm)
    simp [State.reg, State.setReg, Vector.get_eq_getElem, h, this]

@[simp] theorem State.reg_setReg_same (r : Reg) (x : Byte) : (s.setReg r x).reg r = x := by simp [State.reg_setReg]

theorem State.reg_setReg_ne {r r' : Reg} (x : Byte) (h : r' ≠ r) : (s.setReg r x).reg r' = s.reg r' := by
  simp [State.reg_setReg, h]

/-- The flag is written last: VF holds it even where VF is the destination (R10). -/
theorem State.reg_setRegFlag (r r' : Reg) (x flag : Byte) :
    (s.setRegFlag r x flag).reg r' = if r' = VF then flag else if r' = r then x else s.reg r' := by
  simp only [State.setRegFlag, State.reg_setReg]

/-- Two states with the same registers have the same register file. -/
theorem State.v_ext {s t : State} (h : ∀ r, s.reg r = t.reg r) : s.v = t.v := by
  refine Vector.ext fun j hj => ?_
  simpa [State.reg, Vector.get_eq_getElem] using h ⟨j, hj⟩

/-- Fx65's block load: registers through x come from memory, the others stay (R166). -/
theorem State.reg_loadRegsThrough (x r : Reg) (base : Nat) :
    (s.loadRegsThrough x base).reg r = if r ≤ x then s.mem.read (base + r.val) else s.reg r := by
  simp [State.reg, State.loadRegsThrough, Vector.get_eq_getElem]

theorem State.regsThrough_length (x : Reg) : (s.regsThrough x).length = x.val + 1 := by
  simp [State.regsThrough]

theorem State.regsThrough_getElem (x : Reg) (j : Nat) (h : j < (s.regsThrough x).length) :
    (s.regsThrough x)[j] = s.reg ⟨j, by rw [State.regsThrough_length] at h; omega⟩ := by
  simp [State.regsThrough, State.reg, Vector.get_eq_getElem]

/-! ### The fields after setReg -/

@[simp] theorem State.setReg_i (r : Reg) (x : Byte) : (s.setReg r x).i = s.i := rfl
@[simp] theorem State.setReg_pc (r : Reg) (x : Byte) : (s.setReg r x).pc = s.pc := rfl
@[simp] theorem State.setReg_sp (r : Reg) (x : Byte) : (s.setReg r x).sp = s.sp := rfl
@[simp] theorem State.setReg_stack (r : Reg) (x : Byte) : (s.setReg r x).stack = s.stack := rfl
@[simp] theorem State.setReg_dt (r : Reg) (x : Byte) : (s.setReg r x).dt = s.dt := rfl
@[simp] theorem State.setReg_st (r : Reg) (x : Byte) : (s.setReg r x).st = s.st := rfl
@[simp] theorem State.setReg_mem (r : Reg) (x : Byte) : (s.setReg r x).mem = s.mem := rfl
@[simp] theorem State.setReg_fb (r : Reg) (x : Byte) : (s.setReg r x).fb = s.fb := rfl
@[simp] theorem State.setReg_waitActive (r : Reg) (x : Byte) : (s.setReg r x).waitActive = s.waitActive := rfl
@[simp] theorem State.setReg_waitReg (r : Reg) (x : Byte) : (s.setReg r x).waitReg = s.waitReg := rfl
@[simp] theorem State.setReg_status (r : Reg) (x : Byte) : (s.setReg r x).status = s.status := rfl
@[simp] theorem State.setReg_keyWaitMode (r : Reg) (x : Byte) : (s.setReg r x).keyWaitMode = s.keyWaitMode := rfl
@[simp] theorem State.setReg_font (r : Reg) (x : Byte) : (s.setReg r x).font = s.font := rfl
@[simp] theorem State.setReg_keys (r : Reg) (x : Byte) : (s.setReg r x).keys = s.keys := rfl
@[simp] theorem State.setReg_rand (r : Reg) (x : Byte) : (s.setReg r x).rand = s.rand := rfl
@[simp] theorem State.setReg_disp (r : Reg) (x : Byte) : (s.setReg r x).disp = s.disp := rfl
@[simp] theorem State.setReg_event (r : Reg) (x : Byte) : (s.setReg r x).event = s.event := rfl
@[simp] theorem State.setReg_faultLog (r : Reg) (x : Byte) : (s.setReg r x).faultLog = s.faultLog := rfl
@[simp] theorem State.setReg_loadable (r : Reg) (x : Byte) : (s.setReg r x).loadable = s.loadable := rfl
@[simp] theorem State.setReg_script (r : Reg) (x : Byte) : (s.setReg r x).script = s.script := rfl
@[simp] theorem State.setReg_draws (r : Reg) (x : Byte) : (s.setReg r x).draws = s.draws := rfl

/-! ### The fields after setRegFlag -/

@[simp] theorem State.setRegFlag_i (r : Reg) (x flag : Byte) : (s.setRegFlag r x flag).i = s.i := rfl
@[simp] theorem State.setRegFlag_pc (r : Reg) (x flag : Byte) : (s.setRegFlag r x flag).pc = s.pc := rfl
@[simp] theorem State.setRegFlag_sp (r : Reg) (x flag : Byte) : (s.setRegFlag r x flag).sp = s.sp := rfl
@[simp] theorem State.setRegFlag_stack (r : Reg) (x flag : Byte) : (s.setRegFlag r x flag).stack = s.stack := rfl
@[simp] theorem State.setRegFlag_dt (r : Reg) (x flag : Byte) : (s.setRegFlag r x flag).dt = s.dt := rfl
@[simp] theorem State.setRegFlag_st (r : Reg) (x flag : Byte) : (s.setRegFlag r x flag).st = s.st := rfl
@[simp] theorem State.setRegFlag_mem (r : Reg) (x flag : Byte) : (s.setRegFlag r x flag).mem = s.mem := rfl
@[simp] theorem State.setRegFlag_fb (r : Reg) (x flag : Byte) : (s.setRegFlag r x flag).fb = s.fb := rfl
@[simp] theorem State.setRegFlag_waitActive (r : Reg) (x flag : Byte) : (s.setRegFlag r x flag).waitActive = s.waitActive := rfl
@[simp] theorem State.setRegFlag_waitReg (r : Reg) (x flag : Byte) : (s.setRegFlag r x flag).waitReg = s.waitReg := rfl
@[simp] theorem State.setRegFlag_status (r : Reg) (x flag : Byte) : (s.setRegFlag r x flag).status = s.status := rfl
@[simp] theorem State.setRegFlag_keyWaitMode (r : Reg) (x flag : Byte) : (s.setRegFlag r x flag).keyWaitMode = s.keyWaitMode := rfl
@[simp] theorem State.setRegFlag_font (r : Reg) (x flag : Byte) : (s.setRegFlag r x flag).font = s.font := rfl
@[simp] theorem State.setRegFlag_keys (r : Reg) (x flag : Byte) : (s.setRegFlag r x flag).keys = s.keys := rfl
@[simp] theorem State.setRegFlag_rand (r : Reg) (x flag : Byte) : (s.setRegFlag r x flag).rand = s.rand := rfl
@[simp] theorem State.setRegFlag_disp (r : Reg) (x flag : Byte) : (s.setRegFlag r x flag).disp = s.disp := rfl
@[simp] theorem State.setRegFlag_event (r : Reg) (x flag : Byte) : (s.setRegFlag r x flag).event = s.event := rfl
@[simp] theorem State.setRegFlag_faultLog (r : Reg) (x flag : Byte) : (s.setRegFlag r x flag).faultLog = s.faultLog := rfl
@[simp] theorem State.setRegFlag_loadable (r : Reg) (x flag : Byte) : (s.setRegFlag r x flag).loadable = s.loadable := rfl
@[simp] theorem State.setRegFlag_script (r : Reg) (x flag : Byte) : (s.setRegFlag r x flag).script = s.script := rfl
@[simp] theorem State.setRegFlag_draws (r : Reg) (x flag : Byte) : (s.setRegFlag r x flag).draws = s.draws := rfl

/-! ### The fields after loadRegsThrough -/

@[simp] theorem State.loadRegsThrough_i (x : Reg) (base : Nat) : (s.loadRegsThrough x base).i = s.i := by simp only [State.loadRegsThrough, State.withV_i]
@[simp] theorem State.loadRegsThrough_pc (x : Reg) (base : Nat) : (s.loadRegsThrough x base).pc = s.pc := by simp only [State.loadRegsThrough, State.withV_pc]
@[simp] theorem State.loadRegsThrough_sp (x : Reg) (base : Nat) : (s.loadRegsThrough x base).sp = s.sp := by simp only [State.loadRegsThrough, State.withV_sp]
@[simp] theorem State.loadRegsThrough_stack (x : Reg) (base : Nat) : (s.loadRegsThrough x base).stack = s.stack := by simp only [State.loadRegsThrough, State.withV_stack]
@[simp] theorem State.loadRegsThrough_dt (x : Reg) (base : Nat) : (s.loadRegsThrough x base).dt = s.dt := by simp only [State.loadRegsThrough, State.withV_dt]
@[simp] theorem State.loadRegsThrough_st (x : Reg) (base : Nat) : (s.loadRegsThrough x base).st = s.st := by simp only [State.loadRegsThrough, State.withV_st]
@[simp] theorem State.loadRegsThrough_mem (x : Reg) (base : Nat) : (s.loadRegsThrough x base).mem = s.mem := by simp only [State.loadRegsThrough, State.withV_mem]
@[simp] theorem State.loadRegsThrough_fb (x : Reg) (base : Nat) : (s.loadRegsThrough x base).fb = s.fb := by simp only [State.loadRegsThrough, State.withV_fb]
@[simp] theorem State.loadRegsThrough_waitActive (x : Reg) (base : Nat) : (s.loadRegsThrough x base).waitActive = s.waitActive := by simp only [State.loadRegsThrough, State.withV_waitActive]
@[simp] theorem State.loadRegsThrough_waitReg (x : Reg) (base : Nat) : (s.loadRegsThrough x base).waitReg = s.waitReg := by simp only [State.loadRegsThrough, State.withV_waitReg]
@[simp] theorem State.loadRegsThrough_status (x : Reg) (base : Nat) : (s.loadRegsThrough x base).status = s.status := by simp only [State.loadRegsThrough, State.withV_status]
@[simp] theorem State.loadRegsThrough_keyWaitMode (x : Reg) (base : Nat) : (s.loadRegsThrough x base).keyWaitMode = s.keyWaitMode := by simp only [State.loadRegsThrough, State.withV_keyWaitMode]
@[simp] theorem State.loadRegsThrough_font (x : Reg) (base : Nat) : (s.loadRegsThrough x base).font = s.font := by simp only [State.loadRegsThrough, State.withV_font]
@[simp] theorem State.loadRegsThrough_keys (x : Reg) (base : Nat) : (s.loadRegsThrough x base).keys = s.keys := by simp only [State.loadRegsThrough, State.withV_keys]
@[simp] theorem State.loadRegsThrough_rand (x : Reg) (base : Nat) : (s.loadRegsThrough x base).rand = s.rand := by simp only [State.loadRegsThrough, State.withV_rand]
@[simp] theorem State.loadRegsThrough_disp (x : Reg) (base : Nat) : (s.loadRegsThrough x base).disp = s.disp := by simp only [State.loadRegsThrough, State.withV_disp]
@[simp] theorem State.loadRegsThrough_event (x : Reg) (base : Nat) : (s.loadRegsThrough x base).event = s.event := by simp only [State.loadRegsThrough, State.withV_event]
@[simp] theorem State.loadRegsThrough_faultLog (x : Reg) (base : Nat) : (s.loadRegsThrough x base).faultLog = s.faultLog := by simp only [State.loadRegsThrough, State.withV_faultLog]
@[simp] theorem State.loadRegsThrough_loadable (x : Reg) (base : Nat) : (s.loadRegsThrough x base).loadable = s.loadable := by simp only [State.loadRegsThrough, State.withV_loadable]
@[simp] theorem State.loadRegsThrough_script (x : Reg) (base : Nat) : (s.loadRegsThrough x base).script = s.script := by simp only [State.loadRegsThrough, State.withV_script]
@[simp] theorem State.loadRegsThrough_draws (x : Reg) (base : Nat) : (s.loadRegsThrough x base).draws = s.draws := by simp only [State.loadRegsThrough, State.withV_draws]

/-! ### The fields after skipIf -/

@[simp] theorem State.skipIf_v (c : Bool) : (s.skipIf c).v = s.v := by cases c <;> rfl
@[simp] theorem State.skipIf_i (c : Bool) : (s.skipIf c).i = s.i := by cases c <;> rfl
@[simp] theorem State.skipIf_pc (c : Bool) : (s.skipIf c).pc = if c then s.pc + 2 else s.pc := by cases c <;> rfl
@[simp] theorem State.skipIf_sp (c : Bool) : (s.skipIf c).sp = s.sp := by cases c <;> rfl
@[simp] theorem State.skipIf_stack (c : Bool) : (s.skipIf c).stack = s.stack := by cases c <;> rfl
@[simp] theorem State.skipIf_dt (c : Bool) : (s.skipIf c).dt = s.dt := by cases c <;> rfl
@[simp] theorem State.skipIf_st (c : Bool) : (s.skipIf c).st = s.st := by cases c <;> rfl
@[simp] theorem State.skipIf_mem (c : Bool) : (s.skipIf c).mem = s.mem := by cases c <;> rfl
@[simp] theorem State.skipIf_fb (c : Bool) : (s.skipIf c).fb = s.fb := by cases c <;> rfl
@[simp] theorem State.skipIf_waitActive (c : Bool) : (s.skipIf c).waitActive = s.waitActive := by cases c <;> rfl
@[simp] theorem State.skipIf_waitReg (c : Bool) : (s.skipIf c).waitReg = s.waitReg := by cases c <;> rfl
@[simp] theorem State.skipIf_status (c : Bool) : (s.skipIf c).status = s.status := by cases c <;> rfl
@[simp] theorem State.skipIf_keyWaitMode (c : Bool) : (s.skipIf c).keyWaitMode = s.keyWaitMode := by cases c <;> rfl
@[simp] theorem State.skipIf_font (c : Bool) : (s.skipIf c).font = s.font := by cases c <;> rfl
@[simp] theorem State.skipIf_keys (c : Bool) : (s.skipIf c).keys = s.keys := by cases c <;> rfl
@[simp] theorem State.skipIf_rand (c : Bool) : (s.skipIf c).rand = s.rand := by cases c <;> rfl
@[simp] theorem State.skipIf_disp (c : Bool) : (s.skipIf c).disp = s.disp := by cases c <;> rfl
@[simp] theorem State.skipIf_event (c : Bool) : (s.skipIf c).event = s.event := by cases c <;> rfl
@[simp] theorem State.skipIf_faultLog (c : Bool) : (s.skipIf c).faultLog = s.faultLog := by cases c <;> rfl
@[simp] theorem State.skipIf_loadable (c : Bool) : (s.skipIf c).loadable = s.loadable := by cases c <;> rfl
@[simp] theorem State.skipIf_script (c : Bool) : (s.skipIf c).script = s.script := by cases c <;> rfl
@[simp] theorem State.skipIf_draws (c : Bool) : (s.skipIf c).draws = s.draws := by cases c <;> rfl

/-! ### The fields after raiseFatalAt -/

@[simp] theorem State.raiseFatalAt_v (a : Word) (c : FatalCause) : (s.raiseFatalAt a c).v = s.v := rfl
@[simp] theorem State.raiseFatalAt_i (a : Word) (c : FatalCause) : (s.raiseFatalAt a c).i = s.i := rfl
@[simp] theorem State.raiseFatalAt_pc (a : Word) (c : FatalCause) : (s.raiseFatalAt a c).pc = s.pc := rfl
@[simp] theorem State.raiseFatalAt_sp (a : Word) (c : FatalCause) : (s.raiseFatalAt a c).sp = s.sp := rfl
@[simp] theorem State.raiseFatalAt_stack (a : Word) (c : FatalCause) : (s.raiseFatalAt a c).stack = s.stack := rfl
@[simp] theorem State.raiseFatalAt_dt (a : Word) (c : FatalCause) : (s.raiseFatalAt a c).dt = s.dt := rfl
@[simp] theorem State.raiseFatalAt_st (a : Word) (c : FatalCause) : (s.raiseFatalAt a c).st = s.st := rfl
@[simp] theorem State.raiseFatalAt_mem (a : Word) (c : FatalCause) : (s.raiseFatalAt a c).mem = s.mem := rfl
@[simp] theorem State.raiseFatalAt_fb (a : Word) (c : FatalCause) : (s.raiseFatalAt a c).fb = s.fb := rfl
@[simp] theorem State.raiseFatalAt_waitActive (a : Word) (c : FatalCause) : (s.raiseFatalAt a c).waitActive = s.waitActive := rfl
@[simp] theorem State.raiseFatalAt_waitReg (a : Word) (c : FatalCause) : (s.raiseFatalAt a c).waitReg = s.waitReg := rfl
@[simp] theorem State.raiseFatalAt_status (a : Word) (c : FatalCause) : (s.raiseFatalAt a c).status = .halted ⟨c, a⟩ := rfl
@[simp] theorem State.raiseFatalAt_keyWaitMode (a : Word) (c : FatalCause) : (s.raiseFatalAt a c).keyWaitMode = s.keyWaitMode := rfl
@[simp] theorem State.raiseFatalAt_font (a : Word) (c : FatalCause) : (s.raiseFatalAt a c).font = s.font := rfl
@[simp] theorem State.raiseFatalAt_keys (a : Word) (c : FatalCause) : (s.raiseFatalAt a c).keys = s.keys := rfl
@[simp] theorem State.raiseFatalAt_rand (a : Word) (c : FatalCause) : (s.raiseFatalAt a c).rand = s.rand := rfl
@[simp] theorem State.raiseFatalAt_disp (a : Word) (c : FatalCause) : (s.raiseFatalAt a c).disp = .none := rfl
@[simp] theorem State.raiseFatalAt_event (a : Word) (c : FatalCause) : (s.raiseFatalAt a c).event = .fatal ⟨c, a⟩ := rfl
@[simp] theorem State.raiseFatalAt_faultLog (a : Word) (c : FatalCause) : (s.raiseFatalAt a c).faultLog = s.faultLog ++ [.fatal ⟨c, a⟩] := rfl
@[simp] theorem State.raiseFatalAt_loadable (a : Word) (c : FatalCause) : (s.raiseFatalAt a c).loadable = s.loadable := rfl
@[simp] theorem State.raiseFatalAt_script (a : Word) (c : FatalCause) : (s.raiseFatalAt a c).script = s.script := rfl
@[simp] theorem State.raiseFatalAt_draws (a : Word) (c : FatalCause) : (s.raiseFatalAt a c).draws = s.draws := rfl

/-! ### The fields after raiseFatal -/

@[simp] theorem State.raiseFatal_v (c : FatalCause) : (s.raiseFatal c).v = s.v := rfl
@[simp] theorem State.raiseFatal_i (c : FatalCause) : (s.raiseFatal c).i = s.i := rfl
@[simp] theorem State.raiseFatal_pc (c : FatalCause) : (s.raiseFatal c).pc = s.pc := rfl
@[simp] theorem State.raiseFatal_sp (c : FatalCause) : (s.raiseFatal c).sp = s.sp := rfl
@[simp] theorem State.raiseFatal_stack (c : FatalCause) : (s.raiseFatal c).stack = s.stack := rfl
@[simp] theorem State.raiseFatal_dt (c : FatalCause) : (s.raiseFatal c).dt = s.dt := rfl
@[simp] theorem State.raiseFatal_st (c : FatalCause) : (s.raiseFatal c).st = s.st := rfl
@[simp] theorem State.raiseFatal_mem (c : FatalCause) : (s.raiseFatal c).mem = s.mem := rfl
@[simp] theorem State.raiseFatal_fb (c : FatalCause) : (s.raiseFatal c).fb = s.fb := rfl
@[simp] theorem State.raiseFatal_waitActive (c : FatalCause) : (s.raiseFatal c).waitActive = s.waitActive := rfl
@[simp] theorem State.raiseFatal_waitReg (c : FatalCause) : (s.raiseFatal c).waitReg = s.waitReg := rfl
@[simp] theorem State.raiseFatal_status (c : FatalCause) : (s.raiseFatal c).status = .halted ⟨c, s.pc - 2⟩ := rfl
@[simp] theorem State.raiseFatal_keyWaitMode (c : FatalCause) : (s.raiseFatal c).keyWaitMode = s.keyWaitMode := rfl
@[simp] theorem State.raiseFatal_font (c : FatalCause) : (s.raiseFatal c).font = s.font := rfl
@[simp] theorem State.raiseFatal_keys (c : FatalCause) : (s.raiseFatal c).keys = s.keys := rfl
@[simp] theorem State.raiseFatal_rand (c : FatalCause) : (s.raiseFatal c).rand = s.rand := rfl
@[simp] theorem State.raiseFatal_disp (c : FatalCause) : (s.raiseFatal c).disp = .none := rfl
@[simp] theorem State.raiseFatal_event (c : FatalCause) : (s.raiseFatal c).event = .fatal ⟨c, s.pc - 2⟩ := rfl
@[simp] theorem State.raiseFatal_faultLog (c : FatalCause) : (s.raiseFatal c).faultLog = s.faultLog ++ [.fatal ⟨c, s.pc - 2⟩] := rfl
@[simp] theorem State.raiseFatal_loadable (c : FatalCause) : (s.raiseFatal c).loadable = s.loadable := rfl
@[simp] theorem State.raiseFatal_script (c : FatalCause) : (s.raiseFatal c).script = s.script := rfl
@[simp] theorem State.raiseFatal_draws (c : FatalCause) : (s.raiseFatal c).draws = s.draws := rfl

/-! ### The fields after raiseDecodeError -/

@[simp] theorem State.raiseDecodeError_v (w a : Word) : (s.raiseDecodeError w a).v = s.v := rfl
@[simp] theorem State.raiseDecodeError_i (w a : Word) : (s.raiseDecodeError w a).i = s.i := rfl
@[simp] theorem State.raiseDecodeError_pc (w a : Word) : (s.raiseDecodeError w a).pc = s.pc := rfl
@[simp] theorem State.raiseDecodeError_sp (w a : Word) : (s.raiseDecodeError w a).sp = s.sp := rfl
@[simp] theorem State.raiseDecodeError_stack (w a : Word) : (s.raiseDecodeError w a).stack = s.stack := rfl
@[simp] theorem State.raiseDecodeError_dt (w a : Word) : (s.raiseDecodeError w a).dt = s.dt := rfl
@[simp] theorem State.raiseDecodeError_st (w a : Word) : (s.raiseDecodeError w a).st = s.st := rfl
@[simp] theorem State.raiseDecodeError_mem (w a : Word) : (s.raiseDecodeError w a).mem = s.mem := rfl
@[simp] theorem State.raiseDecodeError_fb (w a : Word) : (s.raiseDecodeError w a).fb = s.fb := rfl
@[simp] theorem State.raiseDecodeError_waitActive (w a : Word) : (s.raiseDecodeError w a).waitActive = s.waitActive := rfl
@[simp] theorem State.raiseDecodeError_waitReg (w a : Word) : (s.raiseDecodeError w a).waitReg = s.waitReg := rfl
@[simp] theorem State.raiseDecodeError_status (w a : Word) : (s.raiseDecodeError w a).status = s.status := rfl
@[simp] theorem State.raiseDecodeError_keyWaitMode (w a : Word) : (s.raiseDecodeError w a).keyWaitMode = s.keyWaitMode := rfl
@[simp] theorem State.raiseDecodeError_font (w a : Word) : (s.raiseDecodeError w a).font = s.font := rfl
@[simp] theorem State.raiseDecodeError_keys (w a : Word) : (s.raiseDecodeError w a).keys = s.keys := rfl
@[simp] theorem State.raiseDecodeError_rand (w a : Word) : (s.raiseDecodeError w a).rand = s.rand := rfl
@[simp] theorem State.raiseDecodeError_disp (w a : Word) : (s.raiseDecodeError w a).disp = .none := rfl
@[simp] theorem State.raiseDecodeError_event (w a : Word) : (s.raiseDecodeError w a).event = .decodeError w a := rfl
@[simp] theorem State.raiseDecodeError_faultLog (w a : Word) : (s.raiseDecodeError w a).faultLog = s.faultLog ++ [.decodeError w a] := rfl
@[simp] theorem State.raiseDecodeError_loadable (w a : Word) : (s.raiseDecodeError w a).loadable = s.loadable := rfl
@[simp] theorem State.raiseDecodeError_script (w a : Word) : (s.raiseDecodeError w a).script = s.script := rfl
@[simp] theorem State.raiseDecodeError_draws (w a : Word) : (s.raiseDecodeError w a).draws = s.draws := rfl

/-! ### The fields after timerTicks -/

@[simp] theorem State.timerTicks_v (k : Nat) : (s.timerTicks k).v = s.v := rfl
@[simp] theorem State.timerTicks_i (k : Nat) : (s.timerTicks k).i = s.i := rfl
@[simp] theorem State.timerTicks_pc (k : Nat) : (s.timerTicks k).pc = s.pc := rfl
@[simp] theorem State.timerTicks_sp (k : Nat) : (s.timerTicks k).sp = s.sp := rfl
@[simp] theorem State.timerTicks_stack (k : Nat) : (s.timerTicks k).stack = s.stack := rfl
@[simp] theorem State.timerTicks_dt (k : Nat) : (s.timerTicks k).dt = countDown^[k] s.dt := rfl
@[simp] theorem State.timerTicks_st (k : Nat) : (s.timerTicks k).st = countDown^[k] s.st := rfl
@[simp] theorem State.timerTicks_mem (k : Nat) : (s.timerTicks k).mem = s.mem := rfl
@[simp] theorem State.timerTicks_fb (k : Nat) : (s.timerTicks k).fb = s.fb := rfl
@[simp] theorem State.timerTicks_waitActive (k : Nat) : (s.timerTicks k).waitActive = s.waitActive := rfl
@[simp] theorem State.timerTicks_waitReg (k : Nat) : (s.timerTicks k).waitReg = s.waitReg := rfl
@[simp] theorem State.timerTicks_status (k : Nat) : (s.timerTicks k).status = s.status := rfl
@[simp] theorem State.timerTicks_keyWaitMode (k : Nat) : (s.timerTicks k).keyWaitMode = s.keyWaitMode := rfl
@[simp] theorem State.timerTicks_font (k : Nat) : (s.timerTicks k).font = s.font := rfl
@[simp] theorem State.timerTicks_keys (k : Nat) : (s.timerTicks k).keys = s.keys := rfl
@[simp] theorem State.timerTicks_rand (k : Nat) : (s.timerTicks k).rand = s.rand := rfl
@[simp] theorem State.timerTicks_disp (k : Nat) : (s.timerTicks k).disp = s.disp := rfl
@[simp] theorem State.timerTicks_event (k : Nat) : (s.timerTicks k).event = s.event := rfl
@[simp] theorem State.timerTicks_faultLog (k : Nat) : (s.timerTicks k).faultLog = s.faultLog := rfl
@[simp] theorem State.timerTicks_loadable (k : Nat) : (s.timerTicks k).loadable = s.loadable := rfl
@[simp] theorem State.timerTicks_script (k : Nat) : (s.timerTicks k).script = s.script := rfl
@[simp] theorem State.timerTicks_draws (k : Nat) : (s.timerTicks k).draws = s.draws := rfl

/-! ### The fields after drawSprite -/

@[simp] theorem State.drawSprite_i (cx cy : Byte) (rows : List Byte) : (s.drawSprite cx cy rows).i = s.i := rfl
@[simp] theorem State.drawSprite_pc (cx cy : Byte) (rows : List Byte) : (s.drawSprite cx cy rows).pc = s.pc := rfl
@[simp] theorem State.drawSprite_sp (cx cy : Byte) (rows : List Byte) : (s.drawSprite cx cy rows).sp = s.sp := rfl
@[simp] theorem State.drawSprite_stack (cx cy : Byte) (rows : List Byte) : (s.drawSprite cx cy rows).stack = s.stack := rfl
@[simp] theorem State.drawSprite_dt (cx cy : Byte) (rows : List Byte) : (s.drawSprite cx cy rows).dt = s.dt := rfl
@[simp] theorem State.drawSprite_st (cx cy : Byte) (rows : List Byte) : (s.drawSprite cx cy rows).st = s.st := rfl
@[simp] theorem State.drawSprite_mem (cx cy : Byte) (rows : List Byte) : (s.drawSprite cx cy rows).mem = s.mem := rfl
@[simp] theorem State.drawSprite_fb (cx cy : Byte) (rows : List Byte) : (s.drawSprite cx cy rows).fb = (s.fb.xorSprite cx.toNat cy.toNat rows).1 := rfl
@[simp] theorem State.drawSprite_waitActive (cx cy : Byte) (rows : List Byte) : (s.drawSprite cx cy rows).waitActive = s.waitActive := rfl
@[simp] theorem State.drawSprite_waitReg (cx cy : Byte) (rows : List Byte) : (s.drawSprite cx cy rows).waitReg = s.waitReg := rfl
@[simp] theorem State.drawSprite_status (cx cy : Byte) (rows : List Byte) : (s.drawSprite cx cy rows).status = s.status := rfl
@[simp] theorem State.drawSprite_keyWaitMode (cx cy : Byte) (rows : List Byte) : (s.drawSprite cx cy rows).keyWaitMode = s.keyWaitMode := rfl
@[simp] theorem State.drawSprite_font (cx cy : Byte) (rows : List Byte) : (s.drawSprite cx cy rows).font = s.font := rfl
@[simp] theorem State.drawSprite_keys (cx cy : Byte) (rows : List Byte) : (s.drawSprite cx cy rows).keys = s.keys := rfl
@[simp] theorem State.drawSprite_rand (cx cy : Byte) (rows : List Byte) : (s.drawSprite cx cy rows).rand = s.rand := rfl
@[simp] theorem State.drawSprite_disp (cx cy : Byte) (rows : List Byte) : (s.drawSprite cx cy rows).disp = .xorSprite cx cy rows := rfl
@[simp] theorem State.drawSprite_event (cx cy : Byte) (rows : List Byte) : (s.drawSprite cx cy rows).event = s.event := rfl
@[simp] theorem State.drawSprite_faultLog (cx cy : Byte) (rows : List Byte) : (s.drawSprite cx cy rows).faultLog = s.faultLog := rfl
@[simp] theorem State.drawSprite_loadable (cx cy : Byte) (rows : List Byte) : (s.drawSprite cx cy rows).loadable = s.loadable := rfl
@[simp] theorem State.drawSprite_script (cx cy : Byte) (rows : List Byte) : (s.drawSprite cx cy rows).script = s.script := rfl
@[simp] theorem State.drawSprite_draws (cx cy : Byte) (rows : List Byte) : (s.drawSprite cx cy rows).draws = s.draws := rfl

/-! ### The fields after beginTick -/

@[simp] theorem State.beginTick_v (k : Keys) (r : Byte) : (s.beginTick k r).v = s.v := rfl
@[simp] theorem State.beginTick_i (k : Keys) (r : Byte) : (s.beginTick k r).i = s.i := rfl
@[simp] theorem State.beginTick_pc (k : Keys) (r : Byte) : (s.beginTick k r).pc = s.pc := rfl
@[simp] theorem State.beginTick_sp (k : Keys) (r : Byte) : (s.beginTick k r).sp = s.sp := rfl
@[simp] theorem State.beginTick_stack (k : Keys) (r : Byte) : (s.beginTick k r).stack = s.stack := rfl
@[simp] theorem State.beginTick_dt (k : Keys) (r : Byte) : (s.beginTick k r).dt = s.dt := rfl
@[simp] theorem State.beginTick_st (k : Keys) (r : Byte) : (s.beginTick k r).st = s.st := rfl
@[simp] theorem State.beginTick_mem (k : Keys) (r : Byte) : (s.beginTick k r).mem = s.mem := rfl
@[simp] theorem State.beginTick_fb (k : Keys) (r : Byte) : (s.beginTick k r).fb = s.fb := rfl
@[simp] theorem State.beginTick_waitActive (k : Keys) (r : Byte) : (s.beginTick k r).waitActive = s.waitActive := rfl
@[simp] theorem State.beginTick_waitReg (k : Keys) (r : Byte) : (s.beginTick k r).waitReg = s.waitReg := rfl
@[simp] theorem State.beginTick_status (k : Keys) (r : Byte) : (s.beginTick k r).status = s.status := rfl
@[simp] theorem State.beginTick_keyWaitMode (k : Keys) (r : Byte) : (s.beginTick k r).keyWaitMode = s.keyWaitMode := rfl
@[simp] theorem State.beginTick_font (k : Keys) (r : Byte) : (s.beginTick k r).font = s.font := rfl
@[simp] theorem State.beginTick_keys (k : Keys) (r : Byte) : (s.beginTick k r).keys = k := rfl
@[simp] theorem State.beginTick_rand (k : Keys) (r : Byte) : (s.beginTick k r).rand = r := rfl
@[simp] theorem State.beginTick_disp (k : Keys) (r : Byte) : (s.beginTick k r).disp = .none := rfl
@[simp] theorem State.beginTick_event (k : Keys) (r : Byte) : (s.beginTick k r).event = .ok := rfl
@[simp] theorem State.beginTick_faultLog (k : Keys) (r : Byte) : (s.beginTick k r).faultLog = s.faultLog := rfl
@[simp] theorem State.beginTick_loadable (k : Keys) (r : Byte) : (s.beginTick k r).loadable = false := rfl
@[simp] theorem State.beginTick_script (k : Keys) (r : Byte) : (s.beginTick k r).script = s.script := rfl
@[simp] theorem State.beginTick_draws (k : Keys) (r : Byte) : (s.beginTick k r).draws = s.draws := rfl

@[simp] theorem State.reg_skipIf (c : Bool) (r : Reg) : (s.skipIf c).reg r = s.reg r := by cases c <;> rfl
@[simp] theorem State.reg_raiseFatalAt (a : Word) (c : FatalCause) (r : Reg) : (s.raiseFatalAt a c).reg r = s.reg r := rfl
@[simp] theorem State.reg_raiseFatal (c : FatalCause) (r : Reg) : (s.raiseFatal c).reg r = s.reg r := rfl
@[simp] theorem State.reg_raiseDecodeError (w a : Word) (r : Reg) : (s.raiseDecodeError w a).reg r = s.reg r := rfl
@[simp] theorem State.reg_timerTicks (k : Nat) (r : Reg) : (s.timerTicks k).reg r = s.reg r := rfl
@[simp] theorem State.reg_beginTick (k : Keys) (x : Byte) (r : Reg) : (s.beginTick k x).reg r = s.reg r := rfl

theorem State.reg_drawSprite (cx cy : Byte) (rows : List Byte) (r : Reg) : (s.drawSprite cx cy rows).reg r =
    if r = VF then collisionFlag (s.fb.xorSprite cx.toNat cy.toNat rows).2 else s.reg r := by
  simp [State.drawSprite, State.reg_setReg]

/-! ### Checked instructions -/

@[simp] theorem State.checked_none (t : State) : s.checked none t = t := rfl
@[simp] theorem State.checked_some (c : FatalCause) (t : State) : s.checked (some c) t = s.raiseFatal c := rfl

/-! ### The call stack -/

theorem State.push_of_lt (x : Word) (h : s.sp.val < 16) :
    s.push x = some (s.withStack ⟨s.sp.val + 1, by omega⟩ (s.stack.set s.sp.val x h)) := by
  simp [State.push, h]

theorem State.push_full (x : Word) (h : s.sp.val = 16) : s.push x = none := by
  simp [State.push, h]

theorem State.pop_empty (h : s.sp.val = 0) : s.pop = none := by
  unfold State.pop
  split
  · rfl
  · next heq => simp [heq] at h

theorem State.pop_of_pos {k : Nat} (hk : k < 16) (h : s.sp.val = k + 1) :
    s.pop = some (s.stack[k], s.withStack ⟨k, by omega⟩ s.stack) := by
  unfold State.pop
  split
  · next heq => simp [heq] at h
  · next j hj heq =>
    have : j = k := by simp [heq] at h; exact h
    subst this; rfl

/-! ### Keypad -/

/-- The scan finds a pressed key, and no lower one is pressed. -/
theorem lowestPressed_eq_some {keys : Keys} {k : Reg} (h : lowestPressed keys = some k) :
    keys.get k = true ∧ ∀ j, j < k → keys.get j = false := by
  revert h
  simp only [lowestPressed]
  intro h
  refine ⟨by simpa using List.find?_some h, fun j hj => ?_⟩
  obtain ⟨_, as, bs, hsplit, hbefore⟩ := List.find?_eq_some_iff_append.1 h
  have hs : (List.finRange 16).Pairwise (· < ·) := List.pairwise_lt_finRange 16
  have hin : j ∈ List.finRange 16 := List.mem_finRange j
  rw [hsplit] at hs hin
  rcases List.mem_append.1 hin with h1 | h1
  · simpa using hbefore j h1
  · exfalso
    rcases List.mem_cons.1 h1 with h2 | h2
    · exact absurd hj (h2 ▸ lt_irrefl _)
    · exact absurd hj (lt_asymm (List.rel_of_pairwise_cons (List.pairwise_append.1 hs).2.1 h2))

theorem lowestPressed_eq_none {keys : Keys} : lowestPressed keys = none ↔ ∀ k, keys.get k = false := by
  simp [lowestPressed, List.find?_eq_none]

/-- What the latch can do: nothing, or write the lowest pressed key and clear the wait. -/
theorem State.latch_cases : s.latch = s ∨ ∃ k, s.waitActive = true ∧ lowestPressed s.keys = some k ∧
    s.latch = (s.setReg s.waitReg (keyByte k)).withWait false s.waitReg := by
  unfold State.latch
  split
  · next hw =>
    cases hk : lowestPressed s.keys with
    | none => exact .inl rfl
    | some k => exact .inr ⟨k, hw, rfl, rfl⟩
  · exact .inl rfl

@[simp] theorem State.latch_i : s.latch.i = s.i := by
  obtain h | ⟨k, -, -, h⟩ := s.latch_cases <;> simp [h]
@[simp] theorem State.latch_pc : s.latch.pc = s.pc := by
  obtain h | ⟨k, -, -, h⟩ := s.latch_cases <;> simp [h]
@[simp] theorem State.latch_sp : s.latch.sp = s.sp := by
  obtain h | ⟨k, -, -, h⟩ := s.latch_cases <;> simp [h]
@[simp] theorem State.latch_stack : s.latch.stack = s.stack := by
  obtain h | ⟨k, -, -, h⟩ := s.latch_cases <;> simp [h]
@[simp] theorem State.latch_dt : s.latch.dt = s.dt := by
  obtain h | ⟨k, -, -, h⟩ := s.latch_cases <;> simp [h]
@[simp] theorem State.latch_st : s.latch.st = s.st := by
  obtain h | ⟨k, -, -, h⟩ := s.latch_cases <;> simp [h]
@[simp] theorem State.latch_mem : s.latch.mem = s.mem := by
  obtain h | ⟨k, -, -, h⟩ := s.latch_cases <;> simp [h]
@[simp] theorem State.latch_fb : s.latch.fb = s.fb := by
  obtain h | ⟨k, -, -, h⟩ := s.latch_cases <;> simp [h]
@[simp] theorem State.latch_waitReg : s.latch.waitReg = s.waitReg := by
  obtain h | ⟨k, -, -, h⟩ := s.latch_cases <;> simp [h]
@[simp] theorem State.latch_status : s.latch.status = s.status := by
  obtain h | ⟨k, -, -, h⟩ := s.latch_cases <;> simp [h]
@[simp] theorem State.latch_keyWaitMode : s.latch.keyWaitMode = s.keyWaitMode := by
  obtain h | ⟨k, -, -, h⟩ := s.latch_cases <;> simp [h]
@[simp] theorem State.latch_font : s.latch.font = s.font := by
  obtain h | ⟨k, -, -, h⟩ := s.latch_cases <;> simp [h]
@[simp] theorem State.latch_keys : s.latch.keys = s.keys := by
  obtain h | ⟨k, -, -, h⟩ := s.latch_cases <;> simp [h]
@[simp] theorem State.latch_rand : s.latch.rand = s.rand := by
  obtain h | ⟨k, -, -, h⟩ := s.latch_cases <;> simp [h]
@[simp] theorem State.latch_disp : s.latch.disp = s.disp := by
  obtain h | ⟨k, -, -, h⟩ := s.latch_cases <;> simp [h]
@[simp] theorem State.latch_event : s.latch.event = s.event := by
  obtain h | ⟨k, -, -, h⟩ := s.latch_cases <;> simp [h]
@[simp] theorem State.latch_faultLog : s.latch.faultLog = s.faultLog := by
  obtain h | ⟨k, -, -, h⟩ := s.latch_cases <;> simp [h]
@[simp] theorem State.latch_loadable : s.latch.loadable = s.loadable := by
  obtain h | ⟨k, -, -, h⟩ := s.latch_cases <;> simp [h]
@[simp] theorem State.latch_script : s.latch.script = s.script := by
  obtain h | ⟨k, -, -, h⟩ := s.latch_cases <;> simp [h]
@[simp] theorem State.latch_draws : s.latch.draws = s.draws := by
  obtain h | ⟨k, -, -, h⟩ := s.latch_cases <;> simp [h]

/-! ### Timers -/

theorem countDown_toNat (t : Byte) : (countDown t).toNat = t.toNat - 1 := by
  unfold countDown
  split
  · next h => subst h; rfl
  · next h => have : t.toNat ≠ 0 := fun e => h (BitVec.eq_of_toNat_eq (by simpa using e)); bv_omega

/-- `k` decrements take away `k`, stopping at 0 (44_keypad_timers.md R209). -/
theorem countDown_iterate_toNat (k : Nat) (t : Byte) : (countDown^[k] t).toNat = t.toNat - k := by
  induction k generalizing t with
  | zero => rfl
  | succ k ih => rw [Function.iterate_succ_apply, ih, countDown_toNat]; omega

/-! ### Reset -/

@[simp] theorem State.reset_mem : State.reset.mem = [] := Memory.construct_defaultFont
@[simp] theorem State.resetTo_mem (mode : KeyWaitMode) : (s.resetTo mode).mem = Memory.construct s.font := rfl
@[simp] theorem State.resetTo_font (mode : KeyWaitMode) : (s.resetTo mode).font = s.font := rfl
@[simp] theorem State.resetTo_keyWaitMode (mode : KeyWaitMode) : (s.resetTo mode).keyWaitMode = mode := rfl
@[simp] theorem State.resetTo_faultLog (mode : KeyWaitMode) : (s.resetTo mode).faultLog = s.faultLog := rfl

end Sys2Proof.Machine
end

