-- ==== Sys2Proof/Laws/PerInstr.lean ====
section
/-! SUPPORT. The family RoundTrip, one lemma per instruction: the word of a well-formed instruction decodes to it, with every
operand at every value (spec/30_encoding.md R87, R90). -/

namespace Sys2Proof.Laws.RoundTrip

/-- The word of the instruction decodes to it. -/
def Statement (i : Instr) : Prop := i.wellFormed = true → decodeWord (encodeWord i) = some i

variable (x y : Reg) (kk : Byte) (nnn : BitVec 12) (n : Nat)

theorem cls : Statement .cls := fun _ => rfl
theorem ret : Statement .ret := fun _ => rfl
theorem jp : Statement (.jp nnn) := fun _ => by simp [encodeWord, decodeWord]
theorem call : Statement (.call nnn) := fun _ => by simp [encodeWord, decodeWord]
theorem seImm : Statement (.seImm x kk) := fun _ => by simp [encodeWord, decodeWord]
theorem sneImm : Statement (.sneImm x kk) := fun _ => by simp [encodeWord, decodeWord]
theorem seReg : Statement (.seReg x y) := fun _ => by simp [encodeWord, decodeWord]
theorem ldImm : Statement (.ldImm x kk) := fun _ => by simp [encodeWord, decodeWord]
theorem addImm : Statement (.addImm x kk) := fun _ => by simp [encodeWord, decodeWord]
theorem ldReg : Statement (.ldReg x y) := fun _ => by simp [encodeWord, decodeWord, decodeOp8]
theorem or : Statement (.or x y) := fun _ => by simp [encodeWord, decodeWord, decodeOp8]
theorem and : Statement (.and x y) := fun _ => by simp [encodeWord, decodeWord, decodeOp8]
theorem xor : Statement (.xor x y) := fun _ => by simp [encodeWord, decodeWord, decodeOp8]
theorem addReg : Statement (.addReg x y) := fun _ => by simp [encodeWord, decodeWord, decodeOp8]
theorem sub : Statement (.sub x y) := fun _ => by simp [encodeWord, decodeWord, decodeOp8]
theorem shr : Statement (.shr x y) := fun _ => by simp [encodeWord, decodeWord, decodeOp8]
theorem subn : Statement (.subn x y) := fun _ => by simp [encodeWord, decodeWord, decodeOp8]
theorem shl : Statement (.shl x y) := fun _ => by simp [encodeWord, decodeWord, decodeOp8]
theorem sneReg : Statement (.sneReg x y) := fun _ => by simp [encodeWord, decodeWord]
theorem ldI : Statement (.ldI nnn) := fun _ => by simp [encodeWord, decodeWord]
theorem jpV0 : Statement (.jpV0 nnn) := fun _ => by simp [encodeWord, decodeWord]
theorem rnd : Statement (.rnd x kk) := fun _ => by simp [encodeWord, decodeWord]
theorem drw : Statement (.drw x y n) := fun h => by
  have : n % 16 = n := Nat.mod_eq_of_lt (by simp [Instr.wellFormed] at h; omega)
  simp [encodeWord, decodeWord, this]
theorem skp : Statement (.skp x) := fun _ => by simp [encodeWord, decodeWord, decodeOpE]
theorem sknp : Statement (.sknp x) := fun _ => by simp [encodeWord, decodeWord, decodeOpE]
theorem ldVxDt : Statement (.ldVxDt x) := fun _ => by simp [encodeWord, decodeWord, decodeOpF]
theorem ldVxK : Statement (.ldVxK x) := fun _ => by simp [encodeWord, decodeWord, decodeOpF]
theorem ldDtVx : Statement (.ldDtVx x) := fun _ => by simp [encodeWord, decodeWord, decodeOpF]
theorem ldStVx : Statement (.ldStVx x) := fun _ => by simp [encodeWord, decodeWord, decodeOpF]
theorem addIVx : Statement (.addIVx x) := fun _ => by simp [encodeWord, decodeWord, decodeOpF]
theorem ldFVx : Statement (.ldFVx x) := fun _ => by simp [encodeWord, decodeWord, decodeOpF]
theorem ldBVx : Statement (.ldBVx x) := fun _ => by simp [encodeWord, decodeWord, decodeOpF]
theorem ldMemVx : Statement (.ldMemVx x) := fun _ => by simp [encodeWord, decodeWord, decodeOpF]
theorem ldVxMem : Statement (.ldVxMem x) := fun _ => by simp [encodeWord, decodeWord, decodeOpF]

end Sys2Proof.Laws.RoundTrip
end

