-- ==== Sys2Proof/Laws/Step.lean ====
section
/-! SUPPORT. Inversion: what a step can do, said once, down to `exec` of the decoded instruction. Proofs about every step start
from these and unfold neither `step` nor `tick`. -/

namespace Sys2Proof.Machine

variable {s t : State}

/-- Every instruction answers a next state. -/
theorem exec_answers (i : Instr) (s : State) : ∃ t, exec i s = .next t := by
  cases i <;> exact ⟨_, rfl⟩

theorem fetchOutOfRange_iff {a : Word} : fetchOutOfRange a = true ↔ 0xFFE < a.toNat := by
  simp only [fetchOutOfRange, Config.memSize, decide_eq_true_eq]; omega

/-- Steps (2) to (4) of a tick: a fetch error, a decode error, or the decoded instruction. -/
theorem fetchAndExec_cases (h : fetchAndExec s = .next t) :
    (fetchOutOfRange s.pc = true ∧ t = s.raiseFatalAt s.pc (.memoryOutOfRange s.pc.toNat)) ∨
    (fetchOutOfRange s.pc = false ∧ decodeWord s.fetchWord = none ∧
      t = (s.withPc (s.pc + 2)).raiseDecodeError s.fetchWord s.pc) ∨
    (∃ i, fetchOutOfRange s.pc = false ∧ decodeWord s.fetchWord = some i ∧ exec i (s.withPc (s.pc + 2)) = .next t) := by
  unfold fetchAndExec at h
  split at h
  · next hf => exact .inl ⟨hf, by simpa using h.symm⟩
  · next hf =>
    have hf : fetchOutOfRange s.pc = false := by simpa using hf
    split at h
    · next hd => exact .inr (.inl ⟨hf, hd, by simpa using h.symm⟩)
    · next i hd => exact .inr (.inr ⟨i, hf, hd, h⟩)

/-- A tick: of a halted core, or the latch and then steps (2) to (4). -/
theorem tick_cases {keys : Keys} {rand : Byte} (h : tick keys rand s = .next t) :
    (∃ e, s.status = .halted e ∧ t = ((s.withInputs keys rand).withDisp .none).withEvent (.halted e)) ∨
    (s.status = .running ∧ fetchAndExec (s.beginTick keys rand).latch = .next t) := by
  unfold tick at h
  split at h
  · next e he => exact .inl ⟨e, he, by simpa using h.symm⟩
  · next he => exact .inr ⟨he, h⟩

/-- The state a tick is performed on: the script's tick leaves the script, the drawn one follows the drawn timer ticks. -/
def TickBase (s : State) (keys : Keys) (rand : Byte) (b : State) : Prop :=
  (∃ rest, s.script = .tick keys rand :: rest ∧ b = s.withScript rest) ∨
  (s.script = [] ∧ keys = Config.drawKeys s.draws ∧ rand = Config.drawRand s.draws ∧
    b = (s.timerTicks (Config.drawTimerTicks s.draws)).withDraws (s.draws + 1))

/-- A load: taken, or too large. -/
theorem load_cases {bytes : List Byte} (h : load bytes s = .next t) : s.loadable = true ∧
    ((bytes.length ≤ Config.programMax ∧
      t = ((s.withMem (s.mem.writeBytes Config.programBase bytes)).withEvent .ok).withLoadable false) ∨
    (Config.programMax < bytes.length ∧ t = (s.withEvent (.loadTooLarge bytes.length)).withLoadable false)) := by
  unfold load at h
  split at h
  · next hl =>
    refine ⟨hl, ?_⟩
    split at h
    · next hb => exact .inl ⟨hb, by simpa using h.symm⟩
    · next hb => exact .inr ⟨by omega, by simpa using h.symm⟩
  · simp at h

/-- A step is one transaction of the host. -/
theorem step_cases (h : step s = .next t) :
    (∃ keys rand b, TickBase s keys rand b ∧ tick keys rand b = .next t) ∨
    (∃ rest, s.script = .timerTick :: rest ∧ t = (s.withScript rest).timerTicks 1) ∨
    (∃ bytes rest, s.script = .load bytes :: rest ∧ load bytes (s.withScript rest) = .next t) ∨
    (∃ mode rest, s.script = .reset mode :: rest ∧ t = (s.withScript rest).resetTo mode) := by
  unfold step nextTransaction at h
  split at h
  · next tr rest hs =>
    cases tr with
    | tick keys rand => exact .inl ⟨keys, rand, _, .inl ⟨rest, hs, rfl⟩, h⟩
    | timerTick => exact .inr (.inl ⟨rest, hs, by simpa [perform] using h.symm⟩)
    | load bytes => exact .inr (.inr (.inl ⟨bytes, rest, hs, h⟩))
    | reset mode => exact .inr (.inr (.inr ⟨mode, rest, hs, by simpa [perform] using h.symm⟩))
  · next hs => exact .inl ⟨_, _, _, .inr ⟨hs, rfl, rfl, rfl⟩, h⟩

end Sys2Proof.Machine
end

