-- ==== Sys2Proof/Tests/Slice0.lean ====
section
/-! SUPPORT. Tests. Expected values are the spec's: words written out bit by bit from spec/30_encoding.md R87 and R90, and the
vectors of spec/95_test_vectors.md by their ids, each about one step. Then, for each statement with hypotheses, a witness that
meets them. -/

namespace Sys2Proof.Tests
open Sys2Proof Sys2Proof.Machine

/-! ### Helpers -/

/-- The snapshot in which exactly these keys are pressed. -/
def keysDown (pressed : List Nat) : Keys := Vector.ofFn fun k : Fin 16 => pressed.contains k.val

/-- The state after a step that answers a next state. -/
def stepped (s : State) : Option State :=
  match step s with
  | .next t => some t
  | .fault _ => none
  | .refused _ => none

/-- `s` with the word at 0x200 and one tick to come. -/
def ready (w : Word) (s : State) (pressed : List Nat := []) (rand : Byte := 0) : State :=
  (s.withMem (s.mem.writeBytes 0x200 [w.extractLsb' 8 8, w.extractLsb' 0 8])).withScript [.tick (keysDown pressed) rand]

/-- One tick of `s` with the word at 0x200. -/
def ticked (w : Word) (s : State) (pressed : List Nat := []) (rand : Byte := 0) : Option State :=
  stepped (ready w s pressed rand)

/-- The reset state. -/
abbrev r0 : State := State.reset

/-- The reset state of a Blocking machine. -/
abbrev rB : State := State.construct .blocking defaultFont

/-- The reset state with V1 and V2 set. -/
def vv (a b : Byte) : State := (r0.setReg 1 a).setReg 2 b

/-- `s` with these bytes at `a`. -/
def bytesAt (s : State) (a : Nat) (bytes : List Byte) : State := s.withMem (s.mem.writeBytes a bytes)

/-- The reset state with I set. -/
def atI (i : Word) : State := r0.withI i

/-- The reset state with a call stack of this depth, every entry 0x202. -/
def depth (d : Fin 17) : State := r0.withStack d (Vector.replicate 16 0x202)

/-- The reset state with the pixels of one column range of row 0 on. -/
def pixelsOn (lo hi : Nat) : State :=
  r0.withFb (Vector.ofFn fun r : Fin 32 => Vector.ofFn fun c : Fin 64 => r.val = 0 && lo ≤ c.val && c.val ≤ hi)

/-- The columns of row `r` that are on. -/
def rowOn (t : State) (r : Nat) : List Nat := (List.range 64).filter fun c => t.fb.pixel c r

/-- V1, VF and PC. -/
def v1fp (t : State) : Byte × Byte × Word := (t.reg 1, t.reg VF, t.pc)

/-- Status, event, PC and the last entry of the fault log. -/
def stopOf (t : State) : Status × Event × Word × Option Event := (t.status, t.event, t.pc, t.faultLog.getLast?)

/-- What a tick leaves in `stopOf` when the instruction at 0x200 raises `c`. -/
def fatalAt200 (c : FatalCause) : Option (Status × Event × Word × Option Event) :=
  some (.halted ⟨c, 0x200⟩, .fatal ⟨c, 0x200⟩, 0x202, some (.fatal ⟨c, 0x200⟩))

/-- A state halted by a return on an empty stack, as vector L2-A9 has it. -/
def haltedBy (e : FatalError) : State :=
  (((r0.withStatus (.halted e)).withEvent (.fatal e)).withLoadable false).withWait true 1

/-! ### Well-formedness: the one check refuses -/

theorem test_wf_refuses_sixteen_rows : (Instr.drw 0 0 16).wellFormed = false := by decide
theorem test_wf_takes_fifteen_rows : (Instr.drw 0xF 0xF 15).wellFormed = true := by decide

/-! ### Decoding: a word of every constructor, written out from the formats of R87 -/

theorem test_decode_cls : decodeWord 0b0000000011100000 = some .cls := by decide
theorem test_decode_ret : decodeWord 0b0000000011101110 = some .ret := by decide
theorem test_decode_jp : decodeWord 0b0001101010111100 = some (.jp 0xABC) := by decide
theorem test_decode_call : decodeWord 0b0010001000000100 = some (.call 0x204) := by decide
theorem test_decode_seImm : decodeWord 0b0011001101000010 = some (.seImm 3 0x42) := by decide
theorem test_decode_sneImm : decodeWord 0b0100000100000110 = some (.sneImm 1 0x06) := by decide
theorem test_decode_seReg : decodeWord 0b0101000100100000 = some (.seReg 1 2) := by decide
theorem test_decode_ldImm : decodeWord 0b0110101001111111 = some (.ldImm 0xA 0x7F) := by decide
theorem test_decode_addImm : decodeWord 0b0111000111111111 = some (.addImm 1 0xFF) := by decide
theorem test_decode_ldReg : decodeWord 0b1000000100100000 = some (.ldReg 1 2) := by decide
theorem test_decode_or : decodeWord 0b1000000100100001 = some (.or 1 2) := by decide
theorem test_decode_and : decodeWord 0b1000000100100010 = some (.and 1 2) := by decide
theorem test_decode_xor : decodeWord 0b1000000100100011 = some (.xor 1 2) := by decide
theorem test_decode_addReg : decodeWord 0b1000101010110100 = some (.addReg 0xA 0xB) := by decide
theorem test_decode_sub : decodeWord 0b1000000100100101 = some (.sub 1 2) := by decide
theorem test_decode_shr : decodeWord 0b1000000100100110 = some (.shr 1 2) := by decide
theorem test_decode_subn : decodeWord 0b1000000100100111 = some (.subn 1 2) := by decide
theorem test_decode_shl : decodeWord 0b1000000100101110 = some (.shl 1 2) := by decide
theorem test_decode_sneReg : decodeWord 0b1001000100100000 = some (.sneReg 1 2) := by decide
theorem test_decode_ldI : decodeWord 0b1010000100100011 = some (.ldI 0x123) := by decide
theorem test_decode_jpV0 : decodeWord 0b1011001100000000 = some (.jpV0 0x300) := by decide
theorem test_decode_rnd : decodeWord 0b1100000100001111 = some (.rnd 1 0x0F) := by decide
theorem test_decode_drw : decodeWord 0b1101000100100101 = some (.drw 1 2 5) := by decide
theorem test_decode_skp : decodeWord 0b1110000110011110 = some (.skp 1) := by decide
theorem test_decode_sknp : decodeWord 0b1110000110100001 = some (.sknp 1) := by decide
theorem test_decode_ldVxDt : decodeWord 0b1111000100000111 = some (.ldVxDt 1) := by decide
theorem test_decode_ldVxK : decodeWord 0b1111010100001010 = some (.ldVxK 5) := by decide
theorem test_decode_ldDtVx : decodeWord 0b1111001000010101 = some (.ldDtVx 2) := by decide
theorem test_decode_ldStVx : decodeWord 0b1111001000011000 = some (.ldStVx 2) := by decide
theorem test_decode_addIVx : decodeWord 0b1111001000011110 = some (.addIVx 2) := by decide
theorem test_decode_ldFVx : decodeWord 0b1111000000101001 = some (.ldFVx 0) := by decide
theorem test_decode_ldBVx : decodeWord 0b1111000100110011 = some (.ldBVx 1) := by decide
theorem test_decode_ldMemVx : decodeWord 0b1111001101010101 = some (.ldMemVx 3) := by decide
theorem test_decode_ldVxMem : decodeWord 0b1111001101100101 = some (.ldVxMem 3) := by decide

/-- L2-A1: the byte at the lower address is the high byte; an encoder gives the same order. -/
theorem test_bytes_big_endian : decode [0x12, 0x34] = .instr (.jp 0x234) [] ∧ encode (.jp 0x234) = [0x12, 0x34] := by decide

/-- L2-A3, L2-A4: words that are no instruction. -/
theorem test_decode_rejects :
    ([0x0000, 0x0123, 0x5121, 0x8008, 0x800F, 0x9001, 0xE000, 0xE09F, 0xF000, 0xF0FF] : List Word).all
      (fun w => (decodeWord w).isNone) = true := by decide

/-- R85: a decoder consumes exactly two bytes, so fewer are rejected by name. -/
theorem test_decode_truncated : decode [0x12] = .rejected .truncated ∧ decode [] = .rejected .truncated := by decide

/-- The table's word of `Annn` with nnn = 0x123, as the host numbers its bits. -/
theorem test_table_word : decodeTableWord 16 0xA123 = some (.ldI 0x123) := by decide

/-- The host's placement: at reset, with no script, the drawn tick runs the placed word. -/
theorem test_fetch_word_runs :
    (stepped (r0.withFetchWord 16 0x6A7F)).map (fun t => (t.reg 0xA, t.pc)) = some (0x7F, 0x202) := by decide

/-! ### The tick -/

/-- L2-A2. -/
theorem test_A2_decode_error : (ticked 0x0000 r0).map stopOf =
    some (.running, .decodeError 0 0x200, 0x202, some (.decodeError 0 0x200)) := by decide
/-- L2-A6: an odd PC is legal. -/
theorem test_A6_odd_pc : (stepped ((bytesAt (r0.withPc 0x201) 0x201 [0x61, 0x07]).withScript
    [.tick (keysDown []) 0])).map (fun t => (t.reg 1, t.pc)) = some (7, 0x203) := by decide
/-- L2-A8: the fetch needs byte 0x1000. -/
theorem test_A8_fetch_error : (stepped ((r0.withPc 0xFFF).withScript [.tick (keysDown []) 0])).map stopOf =
    some (.halted ⟨.memoryOutOfRange 0xFFF, 0xFFF⟩, .fatal ⟨.memoryOutOfRange 0xFFF, 0xFFF⟩, 0xFFF,
      some (.fatal ⟨.memoryOutOfRange 0xFFF, 0xFFF⟩)) := by decide
/-- L2-A9: a halted core latches nothing. -/
theorem test_A9_halted_tick : (ticked 0x1200 (haltedBy ⟨.stackUnderflow, 0x200⟩) [2]).map
    (fun t => (t.reg 1, t.waitActive, t.pc, t.event)) = some (0, true, 0x200, .halted ⟨.stackUnderflow, 0x200⟩) := by decide
/-- L2-A11: the latch stands when the instruction then raises an error. -/
theorem test_A11_latch_stands : (ticked 0x00EE (r0.withWait true 2) [5]).map
    (fun t => (t.reg 2, t.waitActive, t.status)) = some (5, false, .halted ⟨.stackUnderflow, 0x200⟩) := by decide
/-- L2-F13: the latch comes first, and then F60A sees the same key. -/
theorem test_F13_latch_then_wait : (ticked 0xF60A (r0.withWait true 3) [2]).map
    (fun t => (t.reg 3, t.reg 6, t.waitActive)) = some (2, 2, false) := by decide
/-- L1-12: the lowest pressed key. -/
theorem test_L12_lowest_key : (ticked 0x1200 (r0.withWait true 2) [0xC, 0x4, 0x9]).map
    (fun t => (t.reg 2, t.waitActive, t.pc)) = some (4, false, 0x200) := by decide

/-- R226: each kind has its own code. -/
theorem test_event_codes : ([.decodeError 0 0, .fatal ⟨.stackOverflow, 0⟩, .fatal ⟨.stackUnderflow, 0⟩,
    .fatal ⟨.memoryOutOfRange 0, 0⟩, .fatal ⟨.protectedWrite 0, 0⟩, .fatal ⟨.invalidKeyIndex 0, 0⟩, .loadTooLarge 0]
    : List Event).map (·.code) = [some 1, some 2, some 3, some 4, some 5, some 6, some 7] := by decide

/-! ### Control flow -/

/-- L2-B6 in shape: the deepest entry is popped at depth 16. -/
theorem test_ret_pops : (ticked 0x00EE (depth 16)).map (fun t => (t.pc, t.sp.val)) = some (0x202, 15) := by decide
/-- L2-B5. -/
theorem test_B5_ret_underflow : (ticked 0x00EE r0).map stopOf = fatalAt200 .stackUnderflow := by decide
/-- L2-B1. -/
theorem test_B1_jp : (ticked 0x1ABC r0).map (·.pc) = some 0xABC := by decide
/-- L2-B3. -/
theorem test_B3_call : (ticked 0x2300 (r0.withStack 15 (Vector.replicate 16 0))).map
    (fun t => (t.pc, t.sp.val, t.stack.get 15)) = some (0x300, 16, 0x202) := by decide
/-- L2-B4. -/
theorem test_B4_call_overflow : (ticked 0x2300 (depth 16)).map stopOf = fatalAt200 .stackOverflow := by decide
/-- L2-B7. -/
theorem test_B7_seImm : (ticked 0x3105 (vv 5 0)).map (·.pc) = some 0x204 := by decide
/-- L2-B8. -/
theorem test_B8_seImm : (ticked 0x3106 (vv 5 0)).map (·.pc) = some 0x202 := by decide
/-- L2-B9. -/
theorem test_B9_sneImm : (ticked 0x4105 (vv 5 0)).map (·.pc) = some 0x202 := by decide
/-- L2-B10. -/
theorem test_B10_sneImm : (ticked 0x4106 (vv 5 0)).map (·.pc) = some 0x204 := by decide
/-- L2-B11. -/
theorem test_B11_seReg : (ticked 0x5120 (vv 5 5)).map (·.pc) = some 0x204 := by decide
/-- L2-B12. -/
theorem test_B12_seReg : (ticked 0x5120 (vv 5 6)).map (·.pc) = some 0x202 := by decide
/-- L2-B13. -/
theorem test_B13_sneReg : (ticked 0x9120 (vv 5 5)).map (·.pc) = some 0x202 := by decide
/-- L2-B14. -/
theorem test_B14_sneReg : (ticked 0x9120 (vv 5 6)).map (·.pc) = some 0x204 := by decide
/-- L2-B17: no error at the jump. -/
theorem test_B17_jpV0 : (ticked 0xBFFF (r0.setReg 0 0xFF)).map (fun t => (t.pc, t.event)) = some (0x10FE, .ok) := by decide

/-! ### Registers and arithmetic -/

/-- L2-C1. -/
theorem test_C1_ldImm : (ticked 0x6A7F r0).map (fun t => (t.reg 0xA, t.reg VF)) = some (0x7F, 0) := by decide
/-- L2-C2: no flag. -/
theorem test_C2_addImm : (ticked 0x71FF ((vv 2 0).setReg VF 7)).map v1fp = some (1, 7, 0x202) := by decide
/-- L2-C3. -/
theorem test_C3_ldReg : (ticked 0x8120 (vv 0 0x9C)).map v1fp = some (0x9C, 0, 0x202) := by decide
/-- L2-C4: VF is not reset. -/
theorem test_C4_or : (ticked 0x8121 ((vv 0xF0 0x0F).setReg VF 5)).map v1fp = some (0xFF, 5, 0x202) := by decide
/-- L2-C5. -/
theorem test_C5_and : (ticked 0x8122 (vv 0xF0 0x3C)).map v1fp = some (0x30, 0, 0x202) := by decide
/-- L2-C6. -/
theorem test_C6_xor : (ticked 0x8123 (vv 0xF0 0x3C)).map v1fp = some (0xCC, 0, 0x202) := by decide
/-- L1-5. -/
theorem test_L5_addReg : (ticked 0x8124 (vv 250 10)).map v1fp = some (4, 1, 0x202) := by decide
/-- L2-C8: with x = F the flag is written last. -/
theorem test_C8_addReg_vf : (ticked 0x8F14 ((vv 100 0).setReg VF 200)).map v1fp = some (100, 1, 0x202) := by decide
/-- L1-7a. -/
theorem test_L7a_sub : (ticked 0x8125 (vv 10 20)).map v1fp = some (246, 0, 0x202) := by decide
/-- L2-C9: equal operands do not borrow. -/
theorem test_C9_sub : (ticked 0x8125 (vv 7 7)).map v1fp = some (0, 1, 0x202) := by decide
/-- L2-C12: Vx shifts, not Vy. -/
theorem test_C12_shr : (ticked 0x8126 ((vv 0x81 0x02).setReg VF 9)).map v1fp = some (0x40, 1, 0x202) := by decide
/-- L2-C18. -/
theorem test_C18_shr_vf : (ticked 0x8F06 (r0.setReg VF 0x02)).map (·.reg VF) = some 0 := by decide
/-- L2-C10. -/
theorem test_C10_subn : (ticked 0x8127 (vv 20 10)).map v1fp = some (246, 0, 0x202) := by decide
/-- L2-C11. -/
theorem test_C11_subn : (ticked 0x8127 (vv 10 20)).map v1fp = some (10, 1, 0x202) := by decide
/-- L2-C14. -/
theorem test_C14_shl : (ticked 0x812E (vv 0x81 0)).map v1fp = some (0x02, 1, 0x202) := by decide
/-- L2-C15: the flag is written when it is 0 too. -/
theorem test_C15_shl : (ticked 0x810E ((vv 0x7F 0).setReg VF 1)).map v1fp = some (0xFE, 0, 0x202) := by decide
/-- L2-C19. -/
theorem test_C19_rnd : (ticked 0xC10F r0 [] 0xAB).map v1fp = some (0x0B, 0, 0x202) := by decide

/-! ### Index register and memory -/

/-- L2-D1. -/
theorem test_D1_ldI : (ticked 0xA123 r0).map (·.i) = some 0x123 := by decide
/-- L2-D3: modulo 65536, no flag. -/
theorem test_D3_addIVx : (ticked 0xF11E ((atI 0xFFFF).setReg 1 1)).map (fun t => (t.i, t.reg VF)) = some (0, 0) := by decide
/-- L2-D7: only the low nibble counts. -/
theorem test_D7_ldFVx : (ticked 0xF029 (r0.setReg 0 0x1A)).map (·.i) = some 0x082 := by decide
/-- L2-D12. -/
theorem test_D12_bcd : (ticked 0xF133 ((atI 0xFFD).setReg 1 123)).map
    (fun t => (t.mem.readBytes 0xFFD 3, t.i)) = some ([1, 2, 3], 0xFFD) := by decide
/-- L2-D13: the first target byte in the font region, and nothing is stored before it. -/
theorem test_D13_bcd_protected : (ticked 0xF133 ((atI 0x04E).setReg 1 1)).map (fun t => (stopOf t, t.mem.readBytes 0x04E 2)) =
    (fatalAt200 (.protectedWrite 0x050)).map (·, [0, 0]) := by decide
/-- L2-D17. -/
theorem test_D17_store : (ticked 0xFF55 ((atI 0x300).withV (Vector.ofFn fun r : Fin 16 => BitVec.ofNat 8 r.val))).map
    (fun t => t.mem.readBytes 0x300 17) = some [0, 1, 2, 3, 4, 5, 6, 7, 8, 9, 10, 11, 12, 13, 14, 15, 0] := by decide
/-- L2-D18. -/
theorem test_D18_store_range : (ticked 0xFF55 (atI 0xFF1)).map stopOf = fatalAt200 (.memoryOutOfRange 0x1000) := by decide
/-- L2-D20: the font may be read. -/
theorem test_D20_load : (ticked 0xFF65 (atI 0x050)).map (fun t => (t.reg 0, t.reg 5, t.reg VF)) =
    some (0xF0, 0x20, 0xF0) := by decide
/-- L2-D22: the register above x stays. -/
theorem test_D22_load : (ticked 0xF065 ((bytesAt (atI 0x400) 0x400 [0x42]).setReg 1 9)).map
    (fun t => (t.reg 0, t.reg 1)) = some (0x42, 9) := by decide

/-! ### Display -/

/-- L2-E11. -/
theorem test_E11_cls : (ticked 0x00E0 (pixelsOn 0 63)).map (fun t => (rowOn t 0, t.disp)) = some ([], .clear) := by
  decide +kernel
/-- L2-E6: x = F; the coordinate is the old VF, and VF is written after the drawing. -/
theorem test_E6_draw_vf : (ticked 0xDF11 ((bytesAt (atI 0x300) 0x300 [0xFF]).setReg VF 8 |>.setReg 1 2)).map
    (fun t => (rowOn t 2, t.reg VF)) = some ([8, 9, 10, 11, 12, 13, 14, 15], 0) := by decide +kernel
/-- L2-E10: a collision in column 63, and columns 64 to 67 discarded. -/
theorem test_E10_draw_clips : (ticked 0xD011 ((bytesAt ((pixelsOn 63 63).withI 0x300) 0x300 [0x1F]).setReg 0 60)).map
    (fun t => (rowOn t 0, t.reg VF)) = some ([], 1) := by decide +kernel

/-! ### Keypad and timers -/

/-- L2-F1. -/
theorem test_F1_skp : (ticked 0xE19E (vv 3 0) [3]).map (·.pc) = some 0x204 := by decide
/-- L2-F5. -/
theorem test_F5_skp_no_key : (ticked 0xE19E (vv 16 0) [0]).map stopOf = fatalAt200 (.invalidKeyIndex 16) := by decide
/-- L2-F3. -/
theorem test_F3_sknp : (ticked 0xE1A1 (vv 3 0) [3]).map (·.pc) = some 0x202 := by decide
/-- L2-F4. -/
theorem test_F4_sknp : (ticked 0xE1A1 (vv 3 0) [4]).map (·.pc) = some 0x204 := by decide
/-- L2-F7. -/
theorem test_F7_ldVxDt : (ticked 0xF107 (r0.withTimers 0x3C 0)).map v1fp = some (60, 0, 0x202) := by decide
/-- L2-F8. -/
theorem test_F8_ldDtVx : (ticked 0xF215 (vv 0 5)).map (fun t => (t.dt, t.st)) = some (5, 0) := by decide
/-- L2-F9 with a value that shows. -/
theorem test_F9_ldStVx : (ticked 0xF218 (vv 0 6)).map (fun t => (t.dt, t.st)) = some (0, 6) := by decide
/-- L2-F12: the new target replaces the old one. -/
theorem test_F12_wait : (ticked 0xF60A (r0.withWait true 3)).map
    (fun t => (t.waitActive, t.waitReg, t.pc)) = some (true, 6, 0x202) := by decide
/-- L2-F16. -/
theorem test_F16_blocking : (ticked 0xF30A rB).map (fun t => (t.pc, t.waitActive, t.reg 3)) =
    some (0x200, false, 0) := by decide
/-- L2-F17: a timer at 0 does not wrap. -/
theorem test_F17_timer_tick : (stepped ((r0.withTimers 2 0).withScript [.timerTick])).map (fun t => (t.dt, t.st)) =
    some (1, 0) := by decide

/-! ### Load and reset -/

/-- R257: the bytes are at 0x200 onwards. -/
theorem test_load : (stepped (r0.withScript [.load [0x12, 0x34]])).map
    (fun t => (t.mem.readBytes 0x1FF 4, t.loadable)) = some ([0, 0x12, 0x34, 0], false) := by decide
/-- L2-G3. -/
theorem test_G3_load_too_large : (stepped (r0.withScript [.load (List.replicate 3585 0xAA)])).map
    (fun t => (t.event, t.mem)) = some (.loadTooLarge 3585, []) := by decide +kernel
/-- R260, U11: the launch state is past its load, and a load that does not succeed launches nothing. -/
theorem test_launch : (State.launch .asyncLatch defaultFont [0x12, 0x34] []).map
      (fun t => (t.fetchWord, t.loadable, t.script)) = some (0x1234, false, []) ∧
    State.launch .asyncLatch defaultFont (List.replicate 3585 0xAA) [] = none := by decide +kernel
/-- R64: bits 3 to 0 of every byte of the default font are 0; L1-1: glyphs 0 and F. -/
theorem test_default_font : (defaultFont.toList.all fun b => b.extractLsb' 0 4 == 0) = true ∧
    r0.mem.readBytes 0x050 5 = [0xF0, 0x90, 0x90, 0x90, 0xF0] ∧
    r0.mem.readBytes 0x09B 5 = [0xF0, 0x80, 0xF0, 0x80, 0x80] := by decide
/-- R64, U9: a machine with another font has it after a reset. -/
theorem test_reset_other_font :
    (stepped ((State.construct .asyncLatch (Vector.replicate 80 0x80)).withScript [.reset .blocking])).map
      (fun t => (t.mem.readBytes 0x04F 3, t.mem.readBytes 0x09F 2)) = some ([0, 0x80, 0x80], [0x80, 0]) := by decide +kernel
/-- A second load is refused by name. -/
theorem test_late_load_refused : step ((r0.withLoadable false).withScript [.load []]) = .refused .loadNotAdmitted := rfl
/-- L2-G5: reset of a halted state. -/
theorem test_G5_reset : (stepped ((haltedBy ⟨.stackUnderflow, 0x200⟩).withScript [.reset .asyncLatch])).map
    (fun t => (t.status, t.waitActive, t.pc, t.mem)) = some (.running, false, 0x200, []) := by decide

/-! ### Witnesses: for each statement with hypotheses, states and operands that meet them, at the ends of their ranges -/

theorem witness_DecodeOfEncode : (Instr.drw 0xF 0xF 15).wellFormed = true ∧ Instr.ret.wellFormed = true := by decide

theorem witness_EncodeOfDecode : decodeWord 0xDFFF = some (.drw 0xF 0xF 15) ∧ decodeWord 0x00E0 = some .cls := by decide

/-- A word that matches a row and one that matches none. -/
theorem witness_WordDecodesToTheOneRowItMatches :
    (opcodeMap.filter (·.matchesWord 0x8FF6)).length = 1 ∧ (opcodeMap.filter (·.matchesWord 0xFFFF)).length = 0 := by decide

/-- The state at PC 0x200 with a tick in the script, and the last address that can be fetched from without a script. -/
theorem witness_StepRunsTheDecodedInstruction :
    ((ready 0x6A7F r0).status = .running ∧ (ready 0x6A7F r0).pc.toNat ≤ 0xFFE ∧
      decode [(ready 0x6A7F r0).mem.read 0x200, (ready 0x6A7F r0).mem.read 0x201] = .instr (.ldImm 0xA 0x7F) [] ∧
      (ready 0x6A7F r0).script = [.tick (keysDown []) 0]) ∧
    ((bytesAt (r0.withPc 0xFFE) 0xFFE [0x00, 0xE0]).status = .running ∧
      (bytesAt (r0.withPc 0xFFE) 0xFFE [0x00, 0xE0]).pc.toNat ≤ 0xFFE ∧
      decode [(bytesAt (r0.withPc 0xFFE) 0xFFE [0x00, 0xE0]).mem.read 0xFFE,
        (bytesAt (r0.withPc 0xFFE) 0xFFE [0x00, 0xE0]).mem.read 0xFFF] = .instr .cls [] ∧
      (bytesAt (r0.withPc 0xFFE) 0xFFE [0x00, 0xE0]).script = []) := by decide

/-- The lowest key is 0, the lowest key is 15, no key, and no wait. -/
theorem witness_LatchWritesTheLowestPressedKey :
    (∀ n : Reg, n = 0 ∨ n = 15 → (keysDown [n.val, 15]).get n = true ∧ ∀ j, j < n → (keysDown [n.val, 15]).get j = false) ∧
    (r0.withWait true VF).waitActive = true ∧ (∀ k, r0.keys.get k = false) ∧ r0.waitActive = false := by decide

theorem witness_DecodeErrorIsReportedAndSkipped :
    (ready 0 r0).script = .tick (keysDown []) 0 :: [] ∧ (ready 0 r0).status = .running ∧ (ready 0 r0).pc.toNat ≤ 0xFFE ∧
    decodeWord (ready 0 r0).fetchWord = none := by decide

/-- The first and the last PC that cannot be fetched from on a run. -/
theorem witness_FetchOutsideMemoryHalts :
    (ready 0 (r0.withPc 0xFFF)).script = .tick (keysDown []) 0 :: [] ∧ (ready 0 (r0.withPc 0xFFF)).status = .running ∧
    0xFFE < (ready 0 (r0.withPc 0xFFF)).pc.toNat ∧ 0xFFE < (ready 0 (r0.withPc 0x10FE)).pc.toNat := by decide

theorem witness_HaltedTickChangesNothing :
    (ready 0 (haltedBy ⟨.stackUnderflow, 0x200⟩)).script = .tick (keysDown []) 0 :: [] ∧
    (ready 0 (haltedBy ⟨.stackUnderflow, 0x200⟩)).status = .halted ⟨.stackUnderflow, 0x200⟩ := by decide

/-- A core that has halted on a return from an empty stack meets the invariant. -/
theorem halted_inv : ((haltedBy ⟨.stackUnderflow, 0x200⟩).withScript [.timerTick]).Inv where
  memWf := rfl
  fontIntact := Memory.read_construct_font defaultFont
  pcBound := by decide
  stackBound := fun _ _ hk => absurd hk (Nat.not_lt_zero _)
  blockingNeverWaits := by decide
  haltedLogged := by
    intro e h
    have : e = ⟨.stackUnderflow, 0x200⟩ := by injection h.symm
    subst this; decide
  haltedNotLoadable := fun _ _ => rfl

theorem witness_OnlyResetLeavesHalted :
    ((haltedBy ⟨.stackUnderflow, 0x200⟩).withScript [.timerTick]).Inv ∧
    ((haltedBy ⟨.stackUnderflow, 0x200⟩).withScript [.timerTick]).status = .halted ⟨.stackUnderflow, 0x200⟩ ∧
    ((haltedBy ⟨.stackUnderflow, 0x200⟩).withScript [.timerTick]).NoReset ∧
    ∃ t, step ((haltedBy ⟨.stackUnderflow, 0x200⟩).withScript [.timerTick]) = .next t :=
  ⟨halted_inv, rfl, (fun _ _ h => by cases h), _, rfl⟩

/-- An error of each row of the table, and none. -/
theorem witness_ErrorsAreExactlyTheTableAndPrecise :
    errorOf (.call 0) (depth 16) = some .stackOverflow ∧ errorOf .ret r0 = some .stackUnderflow ∧
    errorOf (.drw 0 0 2) (atI 0xFFF) = some (.memoryOutOfRange 0x1000) ∧ errorOf (.drw 0 0 0) (atI 0xFFFF) = none ∧
    errorOf (.ldBVx 0) (atI 0xFFE) = some (.memoryOutOfRange 0x1000) ∧ errorOf (.ldBVx 0) (atI 0xFFD) = none ∧
    errorOf (.ldMemVx 0) (atI 0x050) = some (.protectedWrite 0x050) ∧ errorOf (.ldMemVx 0) (atI 0x0A0) = none ∧
    errorOf (.ldVxMem 0) (atI 0x2000) = some (.memoryOutOfRange 0x2000) ∧
    errorOf (.skp 1) (vv 16 0) = some (.invalidKeyIndex 16) ∧ errorOf (.sknp 1) (vv 15 0) = none := by decide

theorem witness_OnlyNamedRegistersAreWritten :
    (∃ t, exec (.addReg 1 2) (vv 250 10) = .next t) ∧ writesReg (.addReg 1 2) 2 = false :=
  ⟨⟨_, rfl⟩, by decide⟩

/-- Each element with a writer that changes it. -/
theorem witness_EachStateElementHasItsWriters :
    (ticked 0xA001 r0).map (·.i) ≠ some r0.i ∧ (ticked 0xF215 (vv 0 5)).map (·.dt) ≠ some r0.dt ∧
    (ticked 0xF218 (vv 0 5)).map (·.st) ≠ some r0.st ∧ (ticked 0x2300 r0).map (·.sp) ≠ some r0.sp ∧
    (ticked 0xF255 (vv 0 5 |>.withI 0x300)).map (·.mem.read 0x302) ≠ some 0 ∧
    (ticked 0x00E0 (pixelsOn 0 0)).map (fun t => rowOn t 0) ≠ some (rowOn (pixelsOn 0 0) 0) := by decide +kernel

/-- The latch clears a wait, and a Blocking machine steps without one. -/
theorem witness_WaitStateHasOneSetterAndOneClearer :
    (∃ t, exec (.ldVxK 3) r0 = .next t ∧ t.waitActive = true) ∧
    (∃ t, (ready 0x1200 (r0.withWait true 2) [4]).NoReset ∧ step (ready 0x1200 (r0.withWait true 2) [4]) = .next t ∧
      (ready 0x1200 (r0.withWait true 2) [4]).waitActive = true ∧ t.waitActive = false) ∧
    (∃ t, (ready 0xF30A rB).NoReset ∧ step (ready 0xF30A rB) = .next t ∧ (ready 0xF30A rB).keyWaitMode = .blocking ∧
      (ready 0xF30A rB).waitActive = false) :=
  ⟨⟨_, rfl, rfl⟩, ⟨_, (fun _ _ h => by cases h), rfl, rfl, rfl⟩, ⟨_, (fun _ _ h => by cases h), rfl, rfl, rfl⟩⟩

theorem witness_FramebufferChangesOnlyByItsInstructions : ∃ t, step (ready 0x00E0 (pixelsOn 0 0)) = .next t := ⟨_, rfl⟩

/-- A store that runs, at the first byte after the font, with the two ends of the font region. -/
theorem witness_FontIsNeverOverwritten :
    (∃ t, step (ready 0xF055 (atI 0x0A0)) = .next t ∧ (ready 0xF055 (atI 0x0A0)).NoReset) ∧
    ∀ a : Nat, a = 0x050 ∨ a = 0x09F → 0x050 ≤ a ∧ a ≤ 0x09F :=
  ⟨⟨_, rfl, fun _ _ h => by cases h⟩, by omega⟩

theorem witness_KeyWaitModeIsFixed : ∃ t, step (ready 0xF30A rB) = .next t ∧ (ready 0xF30A rB).NoReset :=
  ⟨_, rfl, fun _ _ h => by cases h⟩

/-- A tick with an event that is logged, a tick whose event is Ok, and a drawn tick. -/
theorem witness_FaultLogRecordsEveryEvent :
    (ticked 0x0123 r0).map (·.faultLog) = some [.decodeError 0x0123 0x200] ∧ (ticked 0x1200 r0).map (·.faultLog) = some [] ∧
    r0.script = [] ∧ (stepped r0).isSome = true := by decide

/-- The invariant holds of the halted state, and it steps. -/
theorem witness_StepKeepsTheMachineInvariant :
    ((haltedBy ⟨.stackUnderflow, 0x200⟩).withScript [.timerTick]).Inv ∧
    ∃ t, step ((haltedBy ⟨.stackUnderflow, 0x200⟩).withScript [.timerTick]) = .next t :=
  ⟨halted_inv, _, rfl⟩

/-- Depths 1 and 16 for the pop, depth 0 for the error. -/
theorem witness_ReturnPopsIntoPc : (depth 1).sp.val = 0 + 1 ∧ (depth 16).sp.val = 15 + 1 ∧ r0.sp.val = 0 := by decide

/-- Depths 0 and 15 for the push, depth 16 for the error. -/
theorem witness_CallPushesTheReturnAddress : r0.sp.val < 16 ∧ (depth 15).sp.val < 16 ∧ (depth 16).sp.val = 16 := by decide

/-- The first and the last n that make no instruction. -/
theorem witness_RegisterSkips : (1 : BitVec 4) ≠ 0 ∧ (15 : BitVec 4) ≠ 0 := by decide

/-- The loop of vector L2-B2, and one at the last address that can be fetched from. -/
theorem witness_IdleLoopTickChangesOnlyTheLatch :
    ((ready 0x1200 r0).script = .tick (keysDown []) 0 :: [] ∧ (ready 0x1200 r0).IdleAt 0x200) ∧
    (bytesAt (r0.withPc 0xFFE) 0xFFE [0x1F, 0xFE]).IdleAt 0xFFE := by
  refine ⟨⟨rfl, ?_⟩, ?_⟩ <;> (unfold State.IdleAt; decide)

theorem witness_ReturnUndoesCall : r0.sp.val < 16 ∧ (depth 15).sp.val < 16 := by decide

/-- For AddSetsCarry, SubtractionsSetNoBorrow and ShiftsSetTheBitShiftedOut: destinations that are not VF. -/
theorem witness_FlagClauses : (0 : Reg) ≠ VF ∧ (14 : Reg) ≠ VF := by decide

/-- The last place below the font, the first above it, and the last in memory. -/
theorem witness_BcdStoresThreeDigits : ∀ a : Word, a = 0x04D ∨ a = 0x0A0 ∨ a = 0xFFD →
    (atI a).mem.wf = true ∧ (atI a).i.toNat + 2 ≤ 0xFFF ∧ ((atI a).i.toNat + 2 < 0x050 ∨ 0x09F < (atI a).i.toNat) := by
  rintro a (rfl | rfl | rfl) <;> decide

/-- One register and all sixteen, at the ends of the ranges. -/
theorem witness_RegistersAreStored : ∀ p : Reg × Word, p = (0, 0x04F) ∨ p = (0, 0xFFF) ∨ p = (15, 0x040) ∨ p = (15, 0xFF0) →
    (atI p.2).mem.wf = true ∧ (atI p.2).i.toNat + p.1.val ≤ 0xFFF ∧
    ((atI p.2).i.toNat + p.1.val < 0x050 ∨ 0x09F < (atI p.2).i.toNat) := by
  rintro p (rfl | rfl | rfl | rfl) <;> decide

theorem witness_RegistersAreLoaded : (atI 0xFFF).i.toNat + (0 : Reg).val ≤ 0xFFF ∧ (atI 0xFF0).i.toNat + (15 : Reg).val ≤ 0xFFF ∧
    (atI 0x050).i.toNat + (15 : Reg).val ≤ 0xFFF := by decide

/-- The same operands as for the store. -/
theorem witness_StoreThenLoadRestoresRegisters : (atI 0xFF0).mem.wf = true ∧ (atI 0xFF0).i.toNat + (15 : Reg).val ≤ 0xFFF ∧
    ((atI 0xFF0).i.toNat + (15 : Reg).val < 0x050 ∨ 0x09F < (atI 0xFF0).i.toNat) := by decide

/-- No rows at an I past memory, and fifteen rows that end at the last byte. -/
theorem witness_DrawIsPixelwiseXor : ((0 : Nat) = 0 ∨ (atI 0xFFFF).i.toNat + 0 - 1 ≤ 0xFFF) ∧
    ((15 : Nat) = 0 ∨ (atI 0xFF1).i.toNat + 15 - 1 ≤ 0xFFF) := by decide

/-- A drawing that collides and one that does not. -/
theorem witness_CollisionFlagIsTheAggregate :
    (∃ t, exec (.drw 0 1 1) ((bytesAt (pixelsOn 3 3) 0x300 [0x10]).withI 0x300) = .next t ∧
      (pixelsOn 3 3).fb.pixel 3 0 = true ∧ t.fb.pixel 3 0 = false) ∧
    (∃ t, exec (.drw 0 1 1) ((bytesAt r0 0x300 [0x10]).withI 0x300) = .next t ∧
      ¬∃ c r, r0.fb.pixel c r = true ∧ t.fb.pixel c r = false) ∧
    ((1 : Nat) = 0 ∨ (atI 0x300).i.toNat + 1 - 1 ≤ 0xFFF) :=
  ⟨⟨_, rfl, by decide +kernel, by decide +kernel⟩,
    ⟨_, rfl, fun ⟨c, r, h, _⟩ => by
      have : r0.fb.pixel c r = false := Framebuffer.pixel_blank c r
      rw [this] at h; cases h⟩, by decide⟩

/-- The first and the last key. -/
theorem witness_KeySkips : ((vv 0 0).reg 1).toNat = (0 : Reg).val ∧ ((vv 15 0).reg 1).toNat = (15 : Reg).val := by decide

/-- The first and the last value that names no key, for both instructions. -/
theorem witness_NoSuchKeyHalts : 15 < ((vv 16 0).reg 1).toNat ∧ 15 < ((vv 255 0).reg 1).toNat ∧
    (Instr.skp 1 = .skp 1 ∨ Instr.skp 1 = .sknp 1) ∧ (Instr.sknp 1 = .skp 1 ∨ Instr.sknp 1 = .sknp 1) := by decide

theorem witness_WaitKeyTakesAPressedKey :
    (∀ k : Reg, k = 0 ∨ k = 15 → (r0.withInputs (keysDown [k.val, 15]) 0).keys.get k = true ∧
      ∀ j, j < k → (r0.withInputs (keysDown [k.val, 15]) 0).keys.get j = false) := by decide

theorem witness_WaitKeyWithNoKey :
    (∀ k, r0.keys.get k = false) ∧ r0.keyWaitMode = .asyncLatch ∧ (∀ k, rB.keys.get k = false) ∧ rB.keyWaitMode = .blocking := by
  decide

theorem witness_TimerTickCountsDown : (r0.withScript [.timerTick]).script = .timerTick :: [] := rfl

/-- The empty load, and the longest one by its length. -/
theorem witness_LoadPlacesTheProgram :
    (r0.withScript [.load []]).script = .load [] :: [] ∧ (r0.withScript [.load []]).loadable = true ∧
    (r0.withScript [.load []]).mem.wf = true ∧ ([] : List Byte).length ≤ 3584 ∧
    (List.replicate 3584 (0xAA : Byte)).length ≤ 3584 :=
  ⟨rfl, rfl, rfl, Nat.zero_le _, List.length_replicate.le⟩

theorem witness_BadLoadsWriteNothing :
    ((r0.withScript [.load (List.replicate 3585 0xAA)]).loadable = true ∧ 3584 < (List.replicate 3585 (0xAA : Byte)).length) ∧
    (((r0.withLoadable false).withScript [.load []]).loadable = false ∧
      ((r0.withLoadable false).withScript [.load []]).script = .load [] :: []) :=
  ⟨⟨rfl, by rw [List.length_replicate]; omega⟩, rfl, rfl⟩

theorem witness_ResetIsConstruction :
    ((haltedBy ⟨.stackUnderflow, 0x200⟩).withScript [.reset .blocking]).script = .reset .blocking :: [] := rfl

/-- A machine with a font of its own: a tick and a reset. -/
theorem witness_FontTableIsFixedAndResetWritesIt :
    (∃ t, step (ready 0x00E0 (State.construct .asyncLatch (Vector.replicate 80 0x80))) = .next t) ∧
    ((State.construct .asyncLatch (Vector.replicate 80 0x80)).withScript [.reset .blocking]).script = .reset .blocking :: [] :=
  ⟨⟨_, rfl⟩, rfl⟩

/-- The empty program, the longest one, and one byte too many, by their lengths. -/
theorem witness_LaunchIsResetAfterOneSuccessfulLoad : ([] : List Byte).length ≤ 3584 ∧
    (List.replicate 3584 (0xAA : Byte)).length ≤ 3584 ∧ 3584 < (List.replicate 3585 (0xAA : Byte)).length :=
  ⟨Nat.zero_le _, List.length_replicate.le, by rw [List.length_replicate]; omega⟩

end Sys2Proof.Tests
end

section
/-! SUPPORT. A machine's two parameters, FONT_TABLE and KEY_WAIT_MODE (spec/00_scope.md R6, 10_state.md R36, 20_memory.md R64):
no instruction and no tick changes either, and no step changes FONT_TABLE. -/

namespace Sys2Proof.Machine

variable {s t : State}

/-! ### What a shared operation with an error branch can do -/

/-- A checked instruction makes its writes or raises an error. -/
theorem State.checked_cases (s : State) (c : Option FatalCause) (t : State) :
    s.checked c t = t ∨ ∃ cause, s.checked c t = s.raiseFatal cause := by
  cases c with
  | none => exact .inl rfl
  | some cause => exact .inr ⟨cause, rfl⟩

/-- A push changes the call stack only. -/
theorem State.eq_withStack_of_push {x : Word} (h : s.push x = some t) : ∃ depth stack, t = s.withStack depth stack := by
  unfold State.push at h
  split at h
  · exact ⟨_, _, (Option.some.inj h).symm⟩
  · cases h

/-- A pop changes the call stack only. -/
theorem State.eq_withStack_of_pop {x : Word} (h : s.pop = some (x, t)) : ∃ depth stack, t = s.withStack depth stack := by
  unfold State.pop at h
  split at h
  · cases h
  · exact ⟨_, _, (Prod.mk.inj (Option.some.inj h)).2.symm⟩

/-! ### The parameters are kept -/

/-- The two states are states of a machine with the same FONT_TABLE and KEY_WAIT_MODE. -/
def State.SameParameters (s t : State) : Prop := t.font = s.font ∧ t.keyWaitMode = s.keyWaitMode

theorem State.sameParameters_checked (c : Option FatalCause) (h : s.SameParameters t) :
    s.SameParameters (s.checked c t) := by
  obtain hc | ⟨cause, hc⟩ := s.checked_cases c t <;> rw [hc]
  · exact h
  · exact ⟨rfl, rfl⟩

theorem execRet_sameParameters (h : execRet s = .next t) : s.SameParameters t := by
  obtain rfl := Host.Outcome.next.inj h
  split
  · next target u hp =>
    obtain ⟨_, _, rfl⟩ := State.eq_withStack_of_pop hp
    exact ⟨rfl, rfl⟩
  · exact ⟨rfl, rfl⟩

theorem execCall_sameParameters {nnn : BitVec 12} (h : execCall nnn s = .next t) : s.SameParameters t := by
  obtain rfl := Host.Outcome.next.inj h
  split
  · next u hp =>
    obtain ⟨_, _, rfl⟩ := State.eq_withStack_of_push hp
    exact ⟨rfl, rfl⟩
  · exact ⟨rfl, rfl⟩

theorem execLdVxK_sameParameters {x : Reg} (h : execLdVxK x s = .next t) : s.SameParameters t := by
  obtain rfl := Host.Outcome.next.inj h
  split
  · exact ⟨rfl, rfl⟩
  · split <;> exact ⟨rfl, rfl⟩

/-- No instruction changes a parameter, whichever branch of its meaning it takes. -/
theorem exec_sameParameters {i : Instr} (h : exec i s = .next t) : s.SameParameters t := by
  cases i with
  | ret => exact execRet_sameParameters h
  | call nnn => exact execCall_sameParameters h
  | ldVxK x => exact execLdVxK_sameParameters h
  | skp _ | sknp _ =>
    obtain rfl := Host.Outcome.next.inj h
    split
    · exact ⟨State.skipIf_font .., State.skipIf_keyWaitMode ..⟩
    · exact ⟨rfl, rfl⟩
  | drw _ _ _ | ldBVx _ | ldMemVx _ | ldVxMem _ =>
    obtain rfl := Host.Outcome.next.inj h
    exact State.sameParameters_checked _ ⟨rfl, rfl⟩
  | seImm _ _ | sneImm _ _ | seReg _ _ | sneReg _ _ =>
    obtain rfl := Host.Outcome.next.inj h
    exact ⟨State.skipIf_font .., State.skipIf_keyWaitMode ..⟩
  | _ =>
    obtain rfl := Host.Outcome.next.inj h
    exact ⟨rfl, rfl⟩

/-- Fetch and decode errors change no parameter either. -/
theorem fetchAndExec_sameParameters (h : fetchAndExec s = .next t) : s.SameParameters t := by
  obtain ⟨-, rfl⟩ | ⟨-, -, rfl⟩ | ⟨i, -, -, hi⟩ := fetchAndExec_cases h
  · exact ⟨rfl, rfl⟩
  · exact ⟨rfl, rfl⟩
  · exact exec_sameParameters (s := s.withPc (s.pc + 2)) hi

theorem tick_sameParameters {keys : Keys} {rand : Byte} (h : tick keys rand s = .next t) : s.SameParameters t := by
  obtain ⟨e, -, rfl⟩ | ⟨-, hx⟩ := tick_cases h
  · exact ⟨rfl, rfl⟩
  · simpa [State.SameParameters] using fetchAndExec_sameParameters hx

theorem load_sameParameters {bytes : List Byte} (h : load bytes s = .next t) : s.SameParameters t := by
  obtain ⟨-, ⟨-, rfl⟩ | ⟨-, rfl⟩⟩ := load_cases h <;> exact ⟨rfl, rfl⟩

/-- What a tick is performed on has the parameters of the state the step began in. -/
theorem TickBase.sameParameters {keys : Keys} {rand : Byte} {b : State} (h : TickBase s keys rand b) :
    s.SameParameters b := by
  obtain ⟨rest, -, rfl⟩ | ⟨-, -, -, rfl⟩ := h <;> exact ⟨rfl, rfl⟩

/-- A step keeps both parameters, or it is a reset. -/
theorem step_sameParameters_or_reset (h : step s = .next t) : s.SameParameters t ∨
    ∃ mode rest, s.script = .reset mode :: rest ∧ t = (s.withScript rest).resetTo mode := by
  obtain ⟨keys, rand, b, hb, ht⟩ | ⟨rest, -, rfl⟩ | ⟨bytes, rest, -, hl⟩ | hr := step_cases h
  · obtain ⟨hbf, hbm⟩ := hb.sameParameters
    obtain ⟨htf, htm⟩ := tick_sameParameters ht
    exact .inl ⟨htf.trans hbf, htm.trans hbm⟩
  · exact .inl ⟨rfl, rfl⟩
  · exact .inl (load_sameParameters (s := s.withScript rest) hl)
  · exact .inr hr

/-- No step changes FONT_TABLE: the reset, which chooses the other parameter, takes the font the machine has. -/
theorem step_font (h : step s = .next t) : t.font = s.font := by
  obtain ⟨hf, -⟩ | ⟨mode, rest, -, rfl⟩ := step_sameParameters_or_reset h
  · exact hf
  · simp

/-! ### Reset -/

/-- A scripted reset is `resetTo`, and it is always answered. -/
theorem step_of_reset {mode : KeyWaitMode} {rest : List Transaction} (h : s.script = .reset mode :: rest) :
    step s = .next ((s.withScript rest).resetTo mode) := by
  simp [step, nextTransaction, h, perform]

end Sys2Proof.Machine
end

section
/-! PROOFS. The statements of spec/00_scope.md. -/

namespace Sys2Proof.Machine

/-- Settles O58: a step keeps the font by inversion, and a reset's memory is the construction's (R255). -/
theorem fontTableIsFixedAndResetWritesIt : Obligations.FontTableIsFixedAndResetWritesIt := by
  refine ⟨fun s t => step_font, fun s mode rest hs => ⟨_, step_of_reset hs, fun j hj => ?_, fun a ha => ?_⟩⟩
  · exact Memory.read_construct_font s.font j hj
  · exact Memory.read_construct_outside s.font ha

end Sys2Proof.Machine
end

section
/-! SUPPORT. The effect of one instruction, by what it writes (spec/10_state.md R21 to R36): every instruction has one of the
effects below, so a claim about what instructions leave alone is a case analysis over effects, and unfolds no meaning. -/

namespace Sys2Proof.Machine

variable {s t : State} {i : Instr}

/-- What the instruction `i` makes of `s`, each effect with the instructions that can have it. -/
inductive ExecEffect (i : Instr) (s : State) : State → Prop where
  /-- An error: nothing of the instruction's own is written (60_exceptions.md R232). -/
  | error (cause : FatalCause) : ExecEffect i s (s.raiseFatal cause)
  /-- Only PC moves, or nothing does: a jump, a skip, Blocking Fx0A. -/
  | control (target : Word) : ExecEffect i s (s.withPc target)
  /-- Only registers that the instruction names are written. -/
  | registers {v : Vector Byte 16} (named : ∀ r, writesReg i r = false → (s.withV v).reg r = s.reg r) :
      ExecEffect i s (s.withV v)
  | index {a : Word} (writer : (∃ nnn, i = .ldI nnn) ∨ ∃ x, i = .addIVx x ∨ i = .ldFVx x) : ExecEffect i s (s.withI a)
  | delay {d : Byte} (writer : ∃ x, i = .ldDtVx x) : ExecEffect i s (s.withTimers d s.st)
  | sound {d : Byte} (writer : ∃ x, i = .ldStVx x) : ExecEffect i s (s.withTimers s.dt d)
  | callStack {depth : Fin 17} {entries : Vector Word 16} {target : Word} (writer : i = .ret ∨ ∃ nnn, i = .call nnn) :
      ExecEffect i s ((s.withStack depth entries).withPc target)
  | memory {m : Memory} (writer : ∃ x, i = .ldBVx x ∨ i = .ldMemVx x) : ExecEffect i s (s.withMem m)
  | clear (writer : i = .cls) : ExecEffect i s ((s.withFb .blank).withDisp .clear)
  | draw {cx cy : Byte} {rows : List Byte} (writer : ∃ x y n, i = .drw x y n) : ExecEffect i s (s.drawSprite cx cy rows)
  /-- AsyncLatch Fx0A with no key pressed sets the wait for its register (44_keypad_timers.md R206). -/
  | wait {x : Reg} (writer : i = .ldVxK x) (mode : s.keyWaitMode = .asyncLatch) (noKey : ∀ k, s.keys.get k = false) :
      ExecEffect i s (s.withWait true x)

/-! ### The shared operations as effects -/

theorem ExecEffect.setReg {r : Reg} {b : Byte} (h : ∀ q, writesReg i q = false → q ≠ r) : ExecEffect i s (s.setReg r b) :=
  .registers fun q hq => State.reg_setReg_ne s b (h q hq)

theorem ExecEffect.setRegFlag {r : Reg} {b flag : Byte} (h : ∀ q, writesReg i q = false → q ≠ r ∧ q ≠ VF) :
    ExecEffect i s (s.setRegFlag r b flag) := by
  refine .registers (v := (s.setRegFlag r b flag).v) fun q hq => ?_
  obtain ⟨hr, hf⟩ := h q hq
  exact (State.reg_setRegFlag s r q b flag).trans (by rw [if_neg hf, if_neg hr])

theorem ExecEffect.skipIf (c : Bool) : ExecEffect i s (s.skipIf c) := by
  cases c with
  | false => exact .control s.pc
  | true => exact .control (s.pc + 2)

/-- A checked instruction errs or has the effect of its writes. -/
theorem ExecEffect.checked {c : Option FatalCause} (h : ExecEffect i s t) : ExecEffect i s (s.checked c t) := by
  cases c with
  | none => exact h
  | some cause => exact .error cause

/-! ### The instructions with branches of their own -/

theorem execRet_effect (h : execRet s = .next t) : ExecEffect .ret s t := by
  obtain rfl := Host.Outcome.next.inj h
  split
  · next hp =>
    obtain ⟨depth, entries, rfl⟩ := State.eq_withStack_of_pop hp
    exact .callStack (.inl rfl)
  · exact .error _

theorem execCall_effect {nnn : BitVec 12} (h : execCall nnn s = .next t) : ExecEffect (.call nnn) s t := by
  obtain rfl := Host.Outcome.next.inj h
  split
  · next hp =>
    obtain ⟨depth, entries, rfl⟩ := State.eq_withStack_of_push hp
    exact .callStack (.inr ⟨nnn, rfl⟩)
  · exact .error _

theorem execLdVxK_effect {x : Reg} (h : execLdVxK x s = .next t) : ExecEffect (.ldVxK x) s t := by
  obtain rfl := Host.Outcome.next.inj h
  split
  · exact .setReg fun r hr => by simpa [writesReg] using hr
  · next hk =>
    split
    · next hm => exact .wait rfl hm (lowestPressed_eq_none.1 hk)
    · exact .control _

/-- Every instruction has one of the effects. -/
theorem exec_effect (h : exec i s = .next t) : ExecEffect i s t := by
  cases i with
  | ret => exact execRet_effect h
  | call nnn => exact execCall_effect h
  | ldVxK x => exact execLdVxK_effect h
  | skp x | sknp x =>
    obtain rfl := Host.Outcome.next.inj h
    split
    · exact .skipIf _
    · exact .error _
  | seImm _ _ | sneImm _ _ | seReg _ _ | sneReg _ _ => obtain rfl := Host.Outcome.next.inj h; exact .skipIf _
  | jp _ | jpV0 _ => obtain rfl := Host.Outcome.next.inj h; exact .control _
  | ldImm _ _ | addImm _ _ | ldReg _ _ | or _ _ | and _ _ | xor _ _ | rnd _ _ | ldVxDt _ =>
    obtain rfl := Host.Outcome.next.inj h
    exact .setReg fun r hr => by simpa [writesReg] using hr
  | addReg _ _ | sub _ _ | shr _ _ | subn _ _ | shl _ _ =>
    obtain rfl := Host.Outcome.next.inj h
    exact .setRegFlag fun r hr => by simpa [writesReg] using hr
  | ldI nnn => obtain rfl := Host.Outcome.next.inj h; exact .index (.inl ⟨nnn, rfl⟩)
  | addIVx x => obtain rfl := Host.Outcome.next.inj h; exact .index (.inr ⟨x, .inl rfl⟩)
  | ldFVx x => obtain rfl := Host.Outcome.next.inj h; exact .index (.inr ⟨x, .inr rfl⟩)
  | ldDtVx x => obtain rfl := Host.Outcome.next.inj h; exact .delay ⟨x, rfl⟩
  | ldStVx x => obtain rfl := Host.Outcome.next.inj h; exact .sound ⟨x, rfl⟩
  | cls => obtain rfl := Host.Outcome.next.inj h; exact .clear rfl
  | drw x y n => obtain rfl := Host.Outcome.next.inj h; exact .checked (.draw ⟨x, y, n, rfl⟩)
  | ldBVx x => obtain rfl := Host.Outcome.next.inj h; exact .checked (.memory ⟨x, .inl rfl⟩)
  | ldMemVx x => obtain rfl := Host.Outcome.next.inj h; exact .checked (.memory ⟨x, .inr rfl⟩)
  | ldVxMem x =>
    obtain rfl := Host.Outcome.next.inj h
    refine .checked (.registers fun r hr => ?_)
    exact (State.reg_loadRegsThrough s x r s.i.toNat).trans (if_neg (by simpa [writesReg] using hr))

end Sys2Proof.Machine
end

section
/-! SUPPORT. The wait state and the key snapshot (spec/10_state.md R32, R33) through an instruction, a tick and a step. -/

namespace Sys2Proof.Machine

variable {s t : State} {i : Instr}

/-! ### One instruction -/

/-- No instruction writes the snapshot. -/
theorem exec_keys (h : exec i s = .next t) : t.keys = s.keys := by
  cases exec_effect h <;> rfl

/-- An instruction leaves the wait state alone, or is the Fx0A that sets it. -/
theorem exec_wait (h : exec i s = .next t) : (t.waitActive = s.waitActive ∧ t.waitReg = s.waitReg) ∨
    ∃ x, i = .ldVxK x ∧ s.keyWaitMode = .asyncLatch ∧ (∀ k, s.keys.get k = false) ∧ t.waitActive = true ∧ t.waitReg = x := by
  cases exec_effect h with
  | wait writer mode noKey => exact .inr ⟨_, writer, mode, noKey, rfl, rfl⟩
  | error | control | registers | index | delay | sound | callStack | memory | clear | draw => exact .inl ⟨rfl, rfl⟩

/-! ### One tick and one step -/

theorem fetchAndExec_keys (h : fetchAndExec s = .next t) : t.keys = s.keys := by
  obtain ⟨-, rfl⟩ | ⟨-, -, rfl⟩ | ⟨i, -, -, hi⟩ := fetchAndExec_cases h
  · rfl
  · rfl
  · exact exec_keys (s := s.withPc (s.pc + 2)) hi

/-- After the latch the wait is only ever set, and only in AsyncLatch mode. -/
theorem fetchAndExec_waitActive (h : fetchAndExec s = .next t) :
    t.waitActive = s.waitActive ∨ (s.keyWaitMode = .asyncLatch ∧ t.waitActive = true) := by
  obtain ⟨-, rfl⟩ | ⟨-, -, rfl⟩ | ⟨i, -, -, hi⟩ := fetchAndExec_cases h
  · exact .inl rfl
  · exact .inl rfl
  · obtain ⟨ha, -⟩ | ⟨x, -, hm, -, ha, -⟩ := exec_wait hi
    · exact .inl ha
    · exact .inr ⟨hm, ha⟩

/-- What may become of the wait: it stays; it was active and a key of the snapshot is pressed; or AsyncLatch mode sets it. -/
def State.WaitStep (s t : State) : Prop :=
  t.waitActive = s.waitActive ∨ (s.waitActive = true ∧ ∃ k, t.keys.get k = true) ∨
    (s.keyWaitMode = .asyncLatch ∧ t.waitActive = true)

theorem tick_waitStep {keys : Keys} {rand : Byte} (h : tick keys rand s = .next t) : s.WaitStep t := by
  obtain ⟨e, -, rfl⟩ | ⟨-, hx⟩ := tick_cases h
  · exact .inl rfl
  · have hkeys : t.keys = keys := by simpa using fetchAndExec_keys hx
    obtain hl | ⟨k, ha, hk, -⟩ := (s.beginTick keys rand).latch_cases
    · rw [hl] at hx
      exact (fetchAndExec_waitActive hx).imp_right .inr
    · exact .inr (.inl ⟨ha, k, by rw [hkeys]; exact (lowestPressed_eq_some hk).1⟩)

/-- A tick is performed on a state with the wait state and the mode of the state the step began in. -/
theorem TickBase.wait {keys : Keys} {rand : Byte} {b : State} (h : TickBase s keys rand b) :
    b.waitActive = s.waitActive ∧ b.keyWaitMode = s.keyWaitMode := by
  obtain ⟨rest, -, rfl⟩ | ⟨-, -, -, rfl⟩ := h <;> exact ⟨rfl, rfl⟩

theorem step_waitStep (hn : s.NoReset) (h : step s = .next t) : s.WaitStep t := by
  obtain ⟨keys, rand, b, hb, ht⟩ | ⟨rest, -, rfl⟩ | ⟨bytes, rest, -, hl⟩ | ⟨mode, rest, hs, -⟩ := step_cases h
  · obtain ⟨ha, hm⟩ := hb.wait
    simpa only [State.WaitStep, ha, hm] using tick_waitStep ht
  · exact .inl rfl
  · obtain ⟨-, ⟨-, rfl⟩ | ⟨-, rfl⟩⟩ := load_cases hl <;> exact .inl rfl
  · exact absurd hs (hn mode rest)

end Sys2Proof.Machine
end

section
/-! SUPPORT. The state at construction, the two instructions of the call stack, each on its two paths, and the key skips where the
register names no key. -/

namespace Sys2Proof.Machine

variable {s : State}

/-! ### Construction -/

/-- With nothing listed, memory is the default font and 0 elsewhere (10_state.md R41). -/
theorem Memory.read_nil (a : Nat) :
    Memory.read [] a = if 0x050 ≤ a ∧ a ≤ 0x09F then fontTable.getD (a - 0x050) 0 else 0 := by
  simp only [Memory.read, resetByte, inFont_iff]

/-- Construction meets the machine's invariant, whatever mode and font the host chooses. -/
theorem State.construct_inv (mode : KeyWaitMode) (font : FontTable) : (State.construct mode font).Inv where
  memWf := Memory.wf_construct font
  fontIntact := Memory.read_construct_font font
  pcBound := by simp [State.construct]
  stackBound := fun _ _ hk => absurd hk (Nat.not_lt_zero _)
  blockingNeverWaits := fun _ => rfl
  haltedLogged := fun _ h => by cases h
  haltedNotLoadable := fun _ h => by cases h

/-! ### Call and return -/

theorem execRet_of_pos {k : Nat} (hk : k < 16) (h : s.sp.val = k + 1) :
    execRet s = .next ((s.withStack ⟨k, by omega⟩ s.stack).withPc s.stack[k]) := by
  simp [execRet, s.pop_of_pos hk h]

theorem execRet_of_empty (h : s.sp.val = 0) : execRet s = .next (s.raiseFatal .stackUnderflow) := by
  simp [execRet, s.pop_empty h]

theorem execCall_of_lt (nnn : BitVec 12) (h : s.sp.val < 16) : execCall nnn s =
    .next ((s.withStack ⟨s.sp.val + 1, by omega⟩ (s.stack.set s.sp.val s.pc h)).withPc (addrOf nnn)) := by
  simp [execCall, s.push_of_lt s.pc h]

theorem execCall_of_full (nnn : BitVec 12) (h : s.sp.val = 16) :
    execCall nnn s = .next (s.raiseFatal .stackOverflow) := by
  simp [execCall, s.push_full s.pc h]

@[simp] theorem addrOf_toNat (nnn : BitVec 12) : (addrOf nnn).toNat = nnn.toNat :=
  BitVec.toNat_setWidth_of_le (by decide)

/-! ### A register value that names no key -/

theorem keyOf_eq_none {x : Byte} (h : 15 < x.toNat) : keyOf x = none :=
  dif_neg (by omega)

theorem execSkp_of_no_key {x : Reg} (h : 15 < (s.reg x).toNat) :
    execSkp x s = .next (s.raiseFatal (.invalidKeyIndex (s.reg x))) := by
  simp [execSkp, keyOf_eq_none h]

theorem execSknp_of_no_key {x : Reg} (h : 15 < (s.reg x).toNat) :
    execSknp x s = .next (s.raiseFatal (.invalidKeyIndex (s.reg x))) := by
  simp [execSknp, keyOf_eq_none h]

end Sys2Proof.Machine
end

section
/-! PROOFS. The statements of spec/10_state.md. -/

namespace Sys2Proof.Machine

/-! ### What an instruction and a step write -/

/-- Settles O15: the only effects that write registers are those of the named registers and the sprite's flag. -/
theorem onlyNamedRegistersAreWritten : Obligations.OnlyNamedRegistersAreWritten := by
  intro i s t r h hr
  cases exec_effect h with
  | registers named => exact named r hr
  | draw writer =>
    obtain ⟨x, y, n, rfl⟩ := writer
    exact (State.reg_drawSprite ..).trans (if_neg (by simpa [writesReg] using hr))
  | error | control | index | delay | sound | callStack | memory | clear | wait => rfl

/-- Settles O16: each effect writes one of the elements at most, and carries the instructions that have it. -/
theorem eachStateElementHasItsWriters : Obligations.EachStateElementHasItsWriters := by
  intro i s t h
  cases exec_effect h with
  | index writer | delay writer | sound writer | callStack writer | memory writer | clear writer | draw writer =>
    simp [writer]
  | error | control | registers | wait => simp

/-- Settles O17: the effect of an instruction, then what a step may make of the wait. -/
theorem waitStateHasOneSetterAndOneClearer : Obligations.WaitStateHasOneSetterAndOneClearer := by
  refine ⟨fun i s t h => exec_wait h, fun s t hn h hs ht => ?_, fun s t hn h hm hs => ?_⟩
  · obtain ha | ⟨-, hk⟩ | ⟨-, ha⟩ := step_waitStep hn h
    · simp [hs, ht] at ha
    · exact hk
    · simp [ht] at ha
  · obtain ha | ⟨ha, -⟩ | ⟨ha, -⟩ := step_waitStep hn h
    · exact ha.trans hs
    · simp [hs] at ha
    · simp [hm] at ha

/-- Settles O20: a step keeps both parameters, or it is a reset. -/
theorem keyWaitModeIsFixed : Obligations.KeyWaitModeIsFixed := by
  intro s t hn h
  obtain ⟨-, hm⟩ | ⟨mode, rest, hs, -⟩ := step_sameParameters_or_reset h
  · exact hm
  · exact absurd hs (hn mode rest)

/-! ### Reset -/

/-- Settles O6: the fields are construction's own, and memory lists nothing, so it reads as the default font. -/
theorem resetHoldsTheStatedValues : Obligations.ResetHoldsTheStatedValues := by
  refine ⟨fun r => ?_, rfl, rfl, rfl, fun k hk => ?_, rfl, rfl, fun a _ => ?_, rfl, rfl, fun c r => ?_,
    rfl, rfl, rfl, rfl⟩
  · simp [State.reg, State.reset, State.construct, Vector.get_eq_getElem]
  · simp [State.reset, State.construct]
  · rw [State.reset_mem, Memory.read_nil]
  · exact Framebuffer.pixel_blank c r

/-- Settles O23: reset is construction in AsyncLatch mode with the default font. -/
theorem resetMeetsTheMachineInvariant : Obligations.ResetMeetsTheMachineInvariant :=
  State.construct_inv .asyncLatch defaultFont

/-! ### The call stack -/

/-- Settles O24: the pop on a stack that is not empty, and the error on an empty one. -/
theorem returnPopsIntoPc : Obligations.ReturnPopsIntoPc := by
  refine ⟨fun s k hk h => ?_, fun s h => ?_⟩
  · exact ⟨_, execRet_of_pos hk h, rfl, rfl, rfl, fun _ => rfl⟩
  · exact ⟨_, execRet_of_empty h, rfl, rfl, rfl⟩

/-- Settles O26: the push below 16 entries, and the error at 16. -/
theorem callPushesTheReturnAddress : Obligations.CallPushesTheReturnAddress := by
  refine ⟨fun nnn s h => ?_, fun nnn s h => ?_⟩
  · refine ⟨_, execCall_of_lt nnn h, addrOf_toNat nnn, rfl, ?_, fun k hk hne => ?_, rfl, fun _ => rfl⟩
    · simp
    · simp [hne.symm]
  · exact ⟨_, execCall_of_full nnn h, rfl, rfl, rfl, rfl⟩

/-! ### Keys -/

/-- Settles O49: no key is named, so both skips raise the error. -/
theorem noSuchKeyHalts : Obligations.NoSuchKeyHalts := by
  intro x i s hx hi
  refine ⟨s.raiseFatal (.invalidKeyIndex (s.reg x)), ?_, rfl, rfl⟩
  obtain rfl | rfl := hi
  · exact execSkp_of_no_key hx
  · exact execSknp_of_no_key hx

end Sys2Proof.Machine
end

section
/-! SUPPORT. Memory through an instruction, a tick and a step (spec/20_memory.md R62, R65): all that is ever written outside a
reset is one transfer that the write check passes. -/

namespace Sys2Proof.Machine

variable {s t : State} {i : Instr}

/-! ### A transfer that passes the write check -/

/-- `m'` is `m` after one transfer, possibly of no bytes, that lies inside memory and outside the font region (R62). -/
def Memory.CheckedStore (m m' : Memory) : Prop :=
  ∃ base xs, checkWrite base xs.length = none ∧ m' = m.writeBytes base xs

theorem Memory.CheckedStore.refl (m : Memory) : m.CheckedStore m :=
  ⟨0, [], rfl, rfl⟩

/-- The range half of the check keeps the canonical form. -/
theorem Memory.CheckedStore.wf {m m' : Memory} (h : m.CheckedStore m') (hm : m.wf = true) : m'.wf = true := by
  obtain ⟨base, xs, hc, rfl⟩ := h
  cases xs with
  | nil => exact hm
  | cons x xs =>
    obtain ⟨hrange, -⟩ := checkWrite_eq_none.1 hc
    exact Memory.wf_writeBytes _ hm (by simp only [List.length_cons, Config.memSize] at hrange ⊢; omega)

/-- The font half of the check leaves the font region alone, whatever the memory lists. -/
theorem Memory.CheckedStore.read_of_inFont {m m' : Memory} (h : m.CheckedStore m') {a : Nat} (ha : inFont a = true) :
    m'.read a = m.read a := by
  obtain ⟨base, xs, hc, rfl⟩ := h
  obtain ⟨-, hfont⟩ := checkWrite_eq_none.1 hc
  have hout : ¬(base ≤ a ∧ a < base + xs.length) := fun hin => by simp [hfont a hin.1 hin.2] at ha
  exact Memory.read_writeBytes_outside m xs (by omega)

/-! ### One instruction -/

/-- A store instruction writes its bytes when the check passes, and nothing when it errs. -/
theorem State.checkedStore_checked {base : Nat} (xs : List Byte) :
    s.mem.CheckedStore (s.checked (checkWrite base xs.length) (s.withMem (s.mem.writeBytes base xs))).mem := by
  cases hc : checkWrite base xs.length with
  | none => exact ⟨base, xs, hc, rfl⟩
  | some cause => exact .refl _

theorem execLdBVx_checkedStore {x : Reg} (h : execLdBVx x s = .next t) : s.mem.CheckedStore t.mem := by
  obtain rfl := Host.Outcome.next.inj h
  exact State.checkedStore_checked (decimalDigits (s.reg x))

theorem execLdMemVx_checkedStore {x : Reg} (h : execLdMemVx x s = .next t) : s.mem.CheckedStore t.mem := by
  obtain rfl := Host.Outcome.next.inj h
  simpa only [s.regsThrough_length x] using State.checkedStore_checked (s := s) (base := s.i.toNat) (s.regsThrough x)

theorem exec_checkedStore (h : exec i s = .next t) : s.mem.CheckedStore t.mem := by
  cases exec_effect h with
  | memory writer =>
    obtain ⟨x, rfl | rfl⟩ := writer
    · exact execLdBVx_checkedStore h
    · exact execLdMemVx_checkedStore h
  | error | control | registers | index | delay | sound | callStack | clear | draw | wait => exact .refl _

/-! ### One tick, one load and one step -/

theorem fetchAndExec_checkedStore (h : fetchAndExec s = .next t) : s.mem.CheckedStore t.mem := by
  obtain ⟨-, rfl⟩ | ⟨-, -, rfl⟩ | ⟨i, -, -, hi⟩ := fetchAndExec_cases h
  · exact .refl _
  · exact .refl _
  · exact exec_checkedStore (s := s.withPc (s.pc + 2)) hi

theorem tick_checkedStore {keys : Keys} {rand : Byte} (h : tick keys rand s = .next t) : s.mem.CheckedStore t.mem := by
  obtain ⟨e, -, rfl⟩ | ⟨-, hx⟩ := tick_cases h
  · exact .refl _
  · simpa using fetchAndExec_checkedStore hx

/-- The largest program ends at 0xFFF and begins after the font region, so a load passes the check as well (R63). -/
theorem load_checkedStore {bytes : List Byte} (h : load bytes s = .next t) : s.mem.CheckedStore t.mem := by
  obtain ⟨-, ⟨hlen, rfl⟩ | ⟨-, rfl⟩⟩ := load_cases h
  · refine ⟨Config.programBase, bytes, checkWrite_eq_none.2 ⟨?_, fun a ha _ => ?_⟩, rfl⟩
    · simp only [Config.programMax, Config.programBase] at hlen ⊢; omega
    · simp only [Config.programBase] at ha
      rw [← Bool.not_eq_true, inFont_iff]; omega
  · exact .refl _

/-- A tick is performed on a state with the memory of the state the step began in. -/
theorem TickBase.mem {keys : Keys} {rand : Byte} {b : State} (h : TickBase s keys rand b) : b.mem = s.mem := by
  obtain ⟨rest, -, rfl⟩ | ⟨-, -, -, rfl⟩ := h <;> rfl

theorem step_checkedStore (hn : s.NoReset) (h : step s = .next t) : s.mem.CheckedStore t.mem := by
  obtain ⟨keys, rand, b, hb, ht⟩ | ⟨rest, -, rfl⟩ | ⟨bytes, rest, -, hl⟩ | ⟨mode, rest, hs, -⟩ := step_cases h
  · simpa only [hb.mem] using tick_checkedStore ht
  · exact .refl _
  · exact load_checkedStore (s := s.withScript rest) hl
  · exact absurd hs (hn mode rest)

end Sys2Proof.Machine
end

section
/-! SUPPORT. PC and the call stack stay bounded (spec/10_state.md R25, 40_control_flow.md R111): a tick fetches from at most 0xFFE,
so an instruction starts with PC at 2 to 0x1000, and the farthest target is that of Bnnn. -/

namespace Sys2Proof.Machine

variable {s t : State} {i : Instr}

/-- Every live entry of the call stack is at most 0x1000 (R111). -/
def State.StackBounded (s : State) : Prop := ∀ k, (h : k < 16) → k < s.sp.val → (s.stack[k]'h).toNat ≤ 0x1000

/-- PC is at most 0x10FE (R25), and the live entries of the call stack are bounded. -/
def State.ControlBounded (s : State) : Prop := s.pc.toNat ≤ 0x10FE ∧ s.StackBounded

/-! ### The targets -/

theorem addrOf_le (nnn : BitVec 12) : (addrOf nnn).toNat ≤ 0xFFF := by
  rw [addrOf_toNat]; omega

/-- Bnnn's sum does not wrap (R118). -/
theorem widen_add_addrOf_le (x : Byte) (nnn : BitVec 12) : (widen x + addrOf nnn).toNat ≤ 0x10FE := by
  have hx : (widen x).toNat = x.toNat := BitVec.toNat_setWidth_of_le (by decide)
  have hn := addrOf_le nnn
  rw [BitVec.toNat_add, hx]; omega

/-! ### One instruction -/

theorem State.controlBounded_skipIf (hpc : s.pc.toNat ≤ 0x1000) (hs : s.StackBounded) (c : Bool) :
    (s.skipIf c).ControlBounded := by
  refine ⟨?_, by cases c <;> exact hs⟩
  rw [State.skipIf_pc]
  split <;> bv_omega

/-- The popped entry is live, so it bounds the new PC. -/
theorem execRet_controlBounded (hpc : s.pc.toNat ≤ 0x1000) (hs : s.StackBounded) (h : execRet s = .next t) :
    t.ControlBounded := by
  cases hsp : s.sp.val with
  | zero =>
    rw [execRet_of_empty hsp] at h
    obtain rfl := Host.Outcome.next.inj h
    exact ⟨hpc.trans (by decide), hs⟩
  | succ k =>
    have hk : k < 16 := by omega
    rw [execRet_of_pos hk hsp] at h
    obtain rfl := Host.Outcome.next.inj h
    exact ⟨(hs k hk (by omega)).trans (by decide), fun j hj hlive => hs j hj (hsp ▸ Nat.lt_succ_of_lt hlive)⟩

/-- The pushed entry is the advanced PC. -/
theorem execCall_controlBounded {nnn : BitVec 12} (hpc : s.pc.toNat ≤ 0x1000) (hs : s.StackBounded)
    (h : execCall nnn s = .next t) : t.ControlBounded := by
  by_cases hsp : s.sp.val < 16
  · rw [execCall_of_lt nnn hsp] at h
    obtain rfl := Host.Outcome.next.inj h
    refine ⟨(addrOf_le nnn).trans (by decide), fun k hk hlive => ?_⟩
    simp only [State.withPc_stack, State.withStack_stack, Vector.getElem_set]
    split
    · exact hpc
    · next hne =>
      have hle : k ≤ s.sp.val := Nat.le_of_lt_succ hlive
      exact hs k hk (by omega)
  · rw [execCall_of_full nnn (by omega)] at h
    obtain rfl := Host.Outcome.next.inj h
    exact ⟨hpc.trans (by decide), hs⟩

/-- Blocking Fx0A goes back to its own address, which does not wrap because PC has moved past it (44_keypad_timers.md R207). -/
theorem execLdVxK_controlBounded {x : Reg} (h2 : 2 ≤ s.pc.toNat) (hpc : s.pc.toNat ≤ 0x1000) (hs : s.StackBounded)
    (h : execLdVxK x s = .next t) : t.ControlBounded := by
  obtain rfl := Host.Outcome.next.inj h
  split
  · exact ⟨hpc.trans (by decide), hs⟩
  · split
    · exact ⟨hpc.trans (by decide), hs⟩
    · exact ⟨by simp only [State.withPc_pc]; bv_omega, hs⟩

theorem exec_controlBounded (h2 : 2 ≤ s.pc.toNat) (hpc : s.pc.toNat ≤ 0x1000) (hs : s.StackBounded)
    (h : exec i s = .next t) : t.ControlBounded := by
  have hsame : s.ControlBounded := ⟨hpc.trans (by decide), hs⟩
  cases i with
  | ret => exact execRet_controlBounded hpc hs h
  | call nnn => exact execCall_controlBounded hpc hs h
  | ldVxK x => exact execLdVxK_controlBounded h2 hpc hs h
  | jp nnn =>
    obtain rfl := Host.Outcome.next.inj h
    exact ⟨(addrOf_le nnn).trans (by decide), hs⟩
  | jpV0 nnn =>
    obtain rfl := Host.Outcome.next.inj h
    exact ⟨widen_add_addrOf_le _ nnn, hs⟩
  | seImm _ _ | sneImm _ _ | seReg _ _ | sneReg _ _ =>
    obtain rfl := Host.Outcome.next.inj h
    exact State.controlBounded_skipIf hpc hs _
  | skp _ | sknp _ =>
    obtain rfl := Host.Outcome.next.inj h
    split
    · exact State.controlBounded_skipIf hpc hs _
    · exact hsame
  | drw _ _ _ | ldBVx _ | ldMemVx _ | ldVxMem _ =>
    obtain rfl := Host.Outcome.next.inj h
    obtain hc | ⟨cause, hc⟩ := State.checked_cases s _ _ <;> rw [hc] <;> exact hsame
  | _ =>
    obtain rfl := Host.Outcome.next.inj h
    exact hsame

/-! ### One tick -/

/-- A fetch inside memory moves PC to 2 at least and 0x1000 at most (20_memory.md R66). -/
theorem toNat_add_two_of_fetch {a : Word} (h : fetchOutOfRange a = false) : 2 ≤ (a + 2).toNat ∧ (a + 2).toNat ≤ 0x1000 := by
  rw [← Bool.not_eq_true, fetchOutOfRange_iff] at h
  constructor <;> bv_omega

theorem fetchAndExec_controlBounded (hs : s.ControlBounded) (h : fetchAndExec s = .next t) : t.ControlBounded := by
  obtain ⟨hpc₀, hstack⟩ := hs
  obtain ⟨-, rfl⟩ | ⟨hf, -, rfl⟩ | ⟨i, hf, -, hi⟩ := fetchAndExec_cases h
  · exact ⟨hpc₀, hstack⟩
  · obtain ⟨-, hpc⟩ := toNat_add_two_of_fetch hf
    exact ⟨hpc.trans (by decide), hstack⟩
  · obtain ⟨h2, hpc⟩ := toNat_add_two_of_fetch hf
    exact exec_controlBounded (s := s.withPc (s.pc + 2)) h2 hpc hstack hi

end Sys2Proof.Machine
end

section
/-! SUPPORT. The machine's invariant, `State.Inv`, through each part of a step (spec/30_encoding.md R94, 10_state.md R37). -/

namespace Sys2Proof.Machine

variable {s t : State} {i : Instr}

/-! ### Status, fault log and load admission through an instruction -/

/-- No instruction admits a load. -/
theorem exec_loadable (h : exec i s = .next t) : t.loadable = s.loadable := by
  cases exec_effect h <;> rfl

/-- The core stops only by a fatal error, and logs it (60_exceptions.md R230, R243). -/
theorem exec_status (h : exec i s = .next t) :
    t.status = s.status ∨ ∃ e, t.status = .halted e ∧ .fatal e ∈ t.faultLog := by
  cases exec_effect h with
  | error cause => exact .inr ⟨⟨cause, s.pc - 2⟩, rfl, by simp⟩
  | control | registers | index | delay | sound | callStack | memory | clear | draw | wait => exact .inl rfl

theorem fetchAndExec_loadable (h : fetchAndExec s = .next t) : t.loadable = s.loadable := by
  obtain ⟨-, rfl⟩ | ⟨-, -, rfl⟩ | ⟨i, -, -, hi⟩ := fetchAndExec_cases h
  · rfl
  · rfl
  · exact exec_loadable (s := s.withPc (s.pc + 2)) hi

theorem fetchAndExec_status (h : fetchAndExec s = .next t) :
    t.status = s.status ∨ ∃ e, t.status = .halted e ∧ .fatal e ∈ t.faultLog := by
  obtain ⟨-, rfl⟩ | ⟨-, -, rfl⟩ | ⟨i, -, -, hi⟩ := fetchAndExec_cases h
  · exact .inr ⟨⟨.memoryOutOfRange s.pc.toNat, s.pc⟩, rfl, by simp⟩
  · exact .inl rfl
  · exact exec_status (s := s.withPc (s.pc + 2)) hi

/-! ### The parts of a step keep the invariant -/

/-- A checked store leaves the machine's font where it is. -/
theorem State.Inv.fontIntact_of_checkedStore (hi : s.Inv) (hm : s.mem.CheckedStore t.mem) (hf : t.font = s.font) :
    ∀ j, (h : j < 80) → t.mem.read (0x050 + j) = t.font[j] := by
  intro j hj
  have hin : inFont (0x050 + j) = true := inFont_iff.2 (by omega)
  simpa only [hm.read_of_inFont hin, hf] using hi.fontIntact j hj

/-- The latch writes a register and ends a wait. -/
theorem State.Inv.latch (hi : s.Inv) : s.latch.Inv := by
  obtain hl | ⟨k, -, -, hl⟩ := s.latch_cases <;> rw [hl]
  · exact hi
  · exact { hi with blockingNeverWaits := fun _ => rfl }

/-- What a tick starts from: its ports are no part of the invariant, and it admits no load. -/
theorem State.Inv.beginTick (hi : s.Inv) (keys : Keys) (rand : Byte) : (s.beginTick keys rand).Inv :=
  { hi with haltedNotLoadable := fun _ _ => rfl }

/-- Fetch, decode and execute in a running core that admits no load. -/
theorem fetchAndExec_inv (hi : s.Inv) (hr : s.status = .running) (hl : s.loadable = false)
    (h : fetchAndExec s = .next t) : t.Inv := by
  have hstore := fetchAndExec_checkedStore h
  obtain ⟨hfont, hmode⟩ := fetchAndExec_sameParameters h
  obtain ⟨hpc, hstack⟩ := fetchAndExec_controlBounded ⟨hi.pcBound, hi.stackBound⟩ h
  refine ⟨hstore.wf hi.memWf, hi.fontIntact_of_checkedStore hstore hfont, hpc, hstack, fun hb => ?_, fun e he => ?_,
    fun _ _ => (fetchAndExec_loadable h).trans hl⟩
  · rw [hmode] at hb
    obtain hw | ⟨ha, -⟩ := fetchAndExec_waitActive h
    · exact hw.trans (hi.blockingNeverWaits hb)
    · simp [ha] at hb
  · obtain hs | ⟨e', hs, hlog⟩ := fetchAndExec_status h
    · simp [hs, hr] at he
    · obtain rfl := Status.halted.inj (hs.symm.trans he)
      exact hlog

theorem tick_inv {keys : Keys} {rand : Byte} (hi : s.Inv) (h : tick keys rand s = .next t) : t.Inv := by
  obtain ⟨e, -, rfl⟩ | ⟨hr, hx⟩ := tick_cases h
  · exact { hi with haltedLogged := fun e' he => by simp [hi.haltedLogged e' he] }
  · exact fetchAndExec_inv (hi.beginTick keys rand).latch (by simpa using hr) (by simp) hx

/-- A load writes outside the font region and uses up the admission; what it logs is added to the log. -/
theorem load_inv {bytes : List Byte} (hi : s.Inv) (h : load bytes s = .next t) : t.Inv := by
  have hstore := load_checkedStore h
  obtain ⟨-, ⟨-, rfl⟩ | ⟨-, rfl⟩⟩ := load_cases h
  · exact { hi with
      memWf := hstore.wf hi.memWf
      fontIntact := hi.fontIntact_of_checkedStore hstore rfl
      haltedNotLoadable := fun _ _ => rfl }
  · exact { hi with
      haltedLogged := fun e he => by simp [hi.haltedLogged e he]
      haltedNotLoadable := fun _ _ => rfl }

/-- A reset is a construction that keeps the log, and its core runs (70_reset_and_hazards.md R256). -/
theorem State.resetTo_inv (s : State) (mode : KeyWaitMode) : (s.resetTo mode).Inv :=
  { State.construct_inv mode s.font with haltedLogged := fun _ he => by cases he }

/-- The host's script is no part of the invariant. -/
theorem State.Inv.withScript (hi : s.Inv) (rest : List Transaction) : (s.withScript rest).Inv := { hi with }

/-- The timers and the count of draws are none either. -/
theorem TickBase.inv {keys : Keys} {rand : Byte} {b : State} (h : TickBase s keys rand b) (hi : s.Inv) : b.Inv := by
  obtain ⟨rest, -, rfl⟩ | ⟨-, -, -, rfl⟩ := h
  · exact hi.withScript rest
  · exact { hi with }

end Sys2Proof.Machine
end

section
/-! SUPPORT. A scripted tick of a running core, and the fetch that needs a byte outside memory (spec/20_memory.md R66). -/

namespace Sys2Proof.Machine

variable {s : State} {keys : Keys} {rand : Byte} {rest : List Transaction}

/-- The tick start is the beginning of the tick and then the latch (30_encoding.md R94). -/
theorem State.tickStart_eq (s : State) (keys : Keys) (rand : Byte) (rest : List Transaction) :
    s.tickStart keys rand rest = ((s.withScript rest).beginTick keys rand).latch := rfl

@[simp] theorem State.tickStart_pc : (s.tickStart keys rand rest).pc = s.pc := by
  simp [State.tickStart_eq]
@[simp] theorem State.tickStart_disp : (s.tickStart keys rand rest).disp = .none := by
  simp [State.tickStart_eq]
@[simp] theorem State.tickStart_faultLog : (s.tickStart keys rand rest).faultLog = s.faultLog := by
  simp [State.tickStart_eq]

/-- A scripted tick of a running core fetches, decodes and executes from the tick start. -/
theorem step_of_tick_running (hs : s.script = .tick keys rand :: rest) (hr : s.status = .running) :
    step s = fetchAndExec (s.tickStart keys rand rest) := by
  simp [step, nextTransaction, hs, perform, tick, hr, State.tickStart_eq]

theorem fetchAndExec_of_fetchOutOfRange (h : fetchOutOfRange s.pc = true) :
    fetchAndExec s = .next (s.raiseFatalAt s.pc (.memoryOutOfRange s.pc.toNat)) :=
  if_pos h

/-- Where no display instruction is out, a fatal error changes the status and reports itself, and that is all (60_exceptions.md
R230, R232). -/
theorem State.raiseFatalAt_of_disp_none (a : Word) (cause : FatalCause) (h : s.disp = .none) :
    s.raiseFatalAt a cause = { s with
      status := .halted ⟨cause, a⟩, event := .fatal ⟨cause, a⟩, faultLog := s.faultLog ++ [.fatal ⟨cause, a⟩] } := by
  cases s
  cases h
  rfl

end Sys2Proof.Machine
end

section
/-! PROOFS. The statements of spec/20_memory.md. -/

namespace Sys2Proof.Machine

/-- Settles O22: each transaction keeps the invariant, and a reset starts from one that meets it. -/
theorem stepKeepsTheMachineInvariant : Obligations.StepKeepsTheMachineInvariant := by
  intro s t hi h
  obtain ⟨keys, rand, b, hb, ht⟩ | ⟨rest, -, rfl⟩ | ⟨bytes, rest, -, hl⟩ | ⟨mode, rest, -, rfl⟩ := step_cases h
  · exact tick_inv (hb.inv hi) ht
  · exact { hi with }
  · exact load_inv (hi.withScript rest) hl
  · exact State.resetTo_inv _ mode

/-- Settles O19: all that a step other than a reset writes is a transfer that the write check passes. -/
theorem fontIsNeverOverwritten : Obligations.FontIsNeverOverwritten := by
  intro s t a hlo hhi hn h
  exact (step_checkedStore hn h).read_of_inFont (inFont_iff.2 ⟨hlo, hhi⟩)

/-- Settles O10: the tick start has the PC of the state before it, and the fetch from there raises the error. -/
theorem fetchOutsideMemoryHalts : Obligations.FetchOutsideMemoryHalts := by
  intro s keys rand rest hs hr hpc
  have hfetch : fetchOutOfRange (s.tickStart keys rand rest).pc = true := by rwa [State.tickStart_pc, fetchOutOfRange_iff]
  rw [step_of_tick_running hs hr, fetchAndExec_of_fetchOutOfRange hfetch,
    State.raiseFatalAt_of_disp_none _ _ State.tickStart_disp]
  simp only [State.tickStart_pc, State.tickStart_faultLog]

end Sys2Proof.Machine
end

section
/-! SUPPORT. The decoder against the encoder (spec/30_encoding.md R85 to R90): the byte decoder through the word decoder, and a
word put together again from its fields. -/

namespace Sys2Proof

variable {w : Word} {i : Instr}

/-! ### Bytes and their word -/

/-- A word that decodes is consumed as its two bytes, and what follows is left over (R85). -/
theorem decode_bytesOfWord_append (h : decodeWord w = some i) (rest : List Byte) :
    decode (bytesOfWord w ++ rest) = .instr i rest := by
  simp [bytesOfWord, decode, wordOfBytes_bytesOfWord, h]

theorem decodeWord_of_decode_eq_instr {hi lo : Byte} {rest : List Byte} (h : decode [hi, lo] = .instr i rest) :
    decodeWord (wordOfBytes hi lo) = some i := by
  cases hd : decodeWord (wordOfBytes hi lo) with
  | none => simp [decode, hd] at h
  | some j =>
    obtain ⟨rfl, -⟩ : j = i ∧ [] = rest := by simpa [decode, hd] using h
    rfl

/-! ### The word of an instruction decodes to it -/

theorem decodeWord_encodeWord (h : i.wellFormed = true) : decodeWord (encodeWord i) = some i := by
  cases i with
  | cls => exact Laws.RoundTrip.cls h
  | ret => exact Laws.RoundTrip.ret h
  | jp nnn => exact Laws.RoundTrip.jp nnn h
  | call nnn => exact Laws.RoundTrip.call nnn h
  | seImm x kk => exact Laws.RoundTrip.seImm x kk h
  | sneImm x kk => exact Laws.RoundTrip.sneImm x kk h
  | seReg x y => exact Laws.RoundTrip.seReg x y h
  | ldImm x kk => exact Laws.RoundTrip.ldImm x kk h
  | addImm x kk => exact Laws.RoundTrip.addImm x kk h
  | ldReg x y => exact Laws.RoundTrip.ldReg x y h
  | or x y => exact Laws.RoundTrip.or x y h
  | and x y => exact Laws.RoundTrip.and x y h
  | xor x y => exact Laws.RoundTrip.xor x y h
  | addReg x y => exact Laws.RoundTrip.addReg x y h
  | sub x y => exact Laws.RoundTrip.sub x y h
  | shr x y => exact Laws.RoundTrip.shr x y h
  | subn x y => exact Laws.RoundTrip.subn x y h
  | shl x y => exact Laws.RoundTrip.shl x y h
  | sneReg x y => exact Laws.RoundTrip.sneReg x y h
  | ldI nnn => exact Laws.RoundTrip.ldI nnn h
  | jpV0 nnn => exact Laws.RoundTrip.jpV0 nnn h
  | rnd x kk => exact Laws.RoundTrip.rnd x kk h
  | drw x y n => exact Laws.RoundTrip.drw x y n h
  | skp x => exact Laws.RoundTrip.skp x h
  | sknp x => exact Laws.RoundTrip.sknp x h
  | ldVxDt x => exact Laws.RoundTrip.ldVxDt x h
  | ldVxK x => exact Laws.RoundTrip.ldVxK x h
  | ldDtVx x => exact Laws.RoundTrip.ldDtVx x h
  | ldStVx x => exact Laws.RoundTrip.ldStVx x h
  | addIVx x => exact Laws.RoundTrip.addIVx x h
  | ldFVx x => exact Laws.RoundTrip.ldFVx x h
  | ldBVx x => exact Laws.RoundTrip.ldBVx x h
  | ldMemVx x => exact Laws.RoundTrip.ldMemVx x h
  | ldVxMem x => exact Laws.RoundTrip.ldVxMem x h

/-! ### A word from its fields (R86, R87) -/

theorem fieldOp_lt (w : Word) : fieldOp w < 16 := (w.extractLsb' 12 4).isLt
theorem fieldN_lt (w : Word) : fieldN w < 16 := (w.extractLsb' 0 4).isLt

theorem encodeNNN_of_fields {op : BitVec 4} (hop : fieldOp w = op.toNat) : encodeNNN op (fieldNNN w) = w := by
  apply BitVec.eq_of_toNat_eq
  rw [encodeNNN_toNat, ← hop, fieldOp_eq, fieldNNN_toNat]
  omega

theorem encodeXKK_of_fields {op : BitVec 4} {kk : Byte} (hop : fieldOp w = op.toNat)
    (hkk : (fieldKK w).toNat = kk.toNat) : encodeXKK op (fieldX w) kk = w := by
  apply BitVec.eq_of_toNat_eq
  rw [encodeXKK_toNat, ← hop, ← hkk, fieldOp_eq, fieldX_val, fieldKK_toNat]
  omega

theorem encodeXYN_of_fields {op n : BitVec 4} (hop : fieldOp w = op.toNat) (hn : fieldN w = n.toNat) :
    encodeXYN op (fieldX w) (fieldY w) n = w := by
  apply BitVec.eq_of_toNat_eq
  rw [encodeXYN_toNat, ← hop, ← hn, fieldOp_eq, fieldX_val, fieldY_val, fieldN_eq]
  omega

/-! ### A decoded instruction has the word it was read from -/

/-- `w` is the encoding of the instruction, and the instruction has one. -/
def Instr.HasWord (i : Instr) (w : Word) : Prop := encodeWord i = w ∧ i.wellFormed = true

theorem decodeOp8_hasWord (hop : fieldOp w = 0x8) (h : decodeOp8 w = some i) : i.HasWord w := by
  unfold decodeOp8 at h
  split at h <;> cases h <;> exact ⟨encodeXYN_of_fields hop ‹_›, rfl⟩

theorem decodeOpE_hasWord (hop : fieldOp w = 0xE) (h : decodeOpE w = some i) : i.HasWord w := by
  unfold decodeOpE at h
  split at h <;> cases h <;> exact ⟨encodeXKK_of_fields hop ‹_›, rfl⟩

theorem decodeOpF_hasWord (hop : fieldOp w = 0xF) (h : decodeOpF w = some i) : i.HasWord w := by
  unfold decodeOpF at h
  split at h <;> cases h <;> exact ⟨encodeXKK_of_fields hop ‹_›, rfl⟩

/-- By top nibble: the format of each row of R90 puts the operands back where the decoder found them. -/
theorem decodeWord_hasWord (h : decodeWord w = some i) : i.HasWord w := by
  unfold decodeWord at h
  split at h
  case h_1 => -- 00E0, 00EE
    split at h
    · next hw => cases h; exact ⟨hw.symm, rfl⟩
    · split at h
      · next hw => cases h; exact ⟨hw.symm, rfl⟩
      · cases h
  case h_2 hop | h_3 hop | h_11 hop | h_12 hop => -- 1nnn, 2nnn, Annn, Bnnn
    cases h
    exact ⟨encodeNNN_of_fields hop, rfl⟩
  case h_4 hop | h_5 hop | h_7 hop | h_8 hop | h_13 hop => -- 3xkk, 4xkk, 6xkk, 7xkk, Cxkk
    cases h
    exact ⟨encodeXKK_of_fields hop rfl, rfl⟩
  case h_6 hop | h_10 hop => -- 5xy0, 9xy0
    split at h
    · next hn => cases h; exact ⟨encodeXYN_of_fields hop hn, rfl⟩
    · cases h
  case h_14 hop => -- Dxyn
    cases h
    have hn := fieldN_lt w
    exact ⟨encodeXYN_of_fields hop (Nat.mod_eq_of_lt hn).symm, decide_eq_true (Nat.le_of_lt_succ hn)⟩
  case h_9 hop => exact decodeOp8_hasWord hop h
  case h_15 hop => exact decodeOpE_hasWord hop h
  case h_16 hop => exact decodeOpF_hasWord hop h
  case h_17 => cases h

end Sys2Proof
end

section
/-! SUPPORT. The decoder against the opcode map (spec/30_encoding.md R90): every pattern fixes the top nibble, so a word can
match only the rows of its own, and among those the decoder's second field decides. -/

namespace Sys2Proof

variable {w : Word}

/-! ### A row's pattern as a test of fields -/

theorem matchesWord_FFFF (v : Word) (f : Word → Instr) : OpcodeRow.matchesWord ⟨0xFFFF#16, v, f⟩ w = decide (w = v) := by
  rw [OpcodeRow.matchesWord, Bool.beq_eq_decide_eq, show w &&& 0xFFFF#16 = w from BitVec.and_allOnes]

theorem matchesWord_F000 (v : Word) (f : Word → Instr) :
    OpcodeRow.matchesWord ⟨0xF000#16, v, f⟩ w = decide (fieldOp w * 4096 = v.toNat) := by
  simp only [OpcodeRow.matchesWord, Bool.beq_eq_decide_eq, ← and_F000_toNat, BitVec.toNat_inj]

theorem matchesWord_F00F (v : Word) (f : Word → Instr) :
    OpcodeRow.matchesWord ⟨0xF00F#16, v, f⟩ w = decide (fieldN w + fieldOp w * 4096 = v.toNat) := by
  rw [Nat.add_comm, ← and_F00F_toNat]
  simp only [OpcodeRow.matchesWord, Bool.beq_eq_decide_eq, BitVec.toNat_inj]

theorem matchesWord_F0FF (v : Word) (f : Word → Instr) :
    OpcodeRow.matchesWord ⟨0xF0FF#16, v, f⟩ w = decide ((fieldKK w).toNat + fieldOp w * 4096 = v.toNat) := by
  rw [Nat.add_comm, ← and_F0FF_toNat]
  simp only [OpcodeRow.matchesWord, Bool.beq_eq_decide_eq, BitVec.toNat_inj]

/-! ### The rows of one top nibble -/

/-- The rows of the opcode map whose pattern has the top nibble `op`. -/
def rowsOfOp (op : Nat) : List OpcodeRow := opcodeMap.filter fun p => fieldOp p.value == op

theorem opcodeMap_mask_covers_op : ∀ p ∈ opcodeMap, p.mask &&& 0xF000#16 = 0xF000#16 := by
  have hall : (opcodeMap.all fun p => p.mask &&& 0xF000#16 == 0xF000#16) = true := by decide
  simpa using hall

theorem OpcodeRow.fieldOp_value_of_matchesWord {p : OpcodeRow} (hmask : p.mask &&& 0xF000#16 = 0xF000#16)
    (h : p.matchesWord w = true) : fieldOp p.value = fieldOp w := by
  have htop : p.value &&& 0xF000#16 = w &&& 0xF000#16 := by
    rw [← eq_of_beq h, BitVec.and_assoc, hmask]
  have := congrArg BitVec.toNat htop
  rw [and_F000_toNat, and_F000_toNat] at this
  omega

theorem filter_opcodeMap_matchesWord (w : Word) :
    opcodeMap.filter (·.matchesWord w) = (rowsOfOp (fieldOp w)).filter (·.matchesWord w) := by
  rw [rowsOfOp, List.filter_filter]
  refine List.filter_congr fun p hp => ?_
  cases hm : p.matchesWord w with
  | false => rfl
  | true => simpa using p.fieldOp_value_of_matchesWord (opcodeMap_mask_covers_op p hp) hm

/-! ### What the rows of each top nibble make of a word -/

/-- The instructions of the rows of the top nibble `op` that the word `w` matches. -/
def readingsOfOp (op : Nat) (w : Word) : List Instr := ((rowsOfOp op).filter (·.matchesWord w)).map (·.instr w)

theorem readingsOfOp_of_row_F000 {op : Nat} {v : Word} {f : Word → Instr} (hop : fieldOp w = op)
    (hrows : rowsOfOp op = [⟨0xF000#16, v, f⟩]) (hv : op * 4096 = v.toNat) : readingsOfOp op w = [f w] := by
  simp [readingsOfOp, hrows, matchesWord_F000, hop, hv]

theorem readingsOfOp_of_row_F00F {op : Nat} {v : Word} {f : Word → Instr} (hop : fieldOp w = op)
    (hrows : rowsOfOp op = [⟨0xF00F#16, v, f⟩]) (hv : op * 4096 = v.toNat) :
    readingsOfOp op w = (if fieldN w = 0 then some (f w) else none).toList := by
  have hrow : OpcodeRow.matchesWord ⟨0xF00F#16, v, f⟩ w = decide (fieldN w = 0) := by
    simp [matchesWord_F00F, hop, ← hv]
  split
  · next hn => simp [readingsOfOp, hrows, hrow, hn]
  · next hn => simp [readingsOfOp, hrows, hrow, hn]

theorem readingsOfOp_zero :
    readingsOfOp 0x0 w = (if w = 0x00E0#16 then some .cls else if w = 0x00EE#16 then some .ret else none).toList := by
  have hrows : rowsOfOp 0x0 = opcodeRows0.take 2 := rfl
  split
  · next hcls => subst hcls; rfl
  · next hcls =>
    split
    · next hret => subst hret; rfl
    · next hret => simp [readingsOfOp, hrows, opcodeRows0, matchesWord_FFFF, hcls, hret]

/-- Each of the nine rows tests `n` for its own value, as the decoder does; an arm of the decoder fixes all nine tests. -/
theorem readingsOfOp_eight (hop : fieldOp w = 0x8) : readingsOfOp 0x8 w = (decodeOp8 w).toList := by
  have hrows : rowsOfOp 0x8 = opcodeRows8.take 9 := rfl
  unfold decodeOp8
  split <;> simp_all [readingsOfOp, opcodeRows8, matchesWord_F00F]

theorem readingsOfOp_E (hop : fieldOp w = 0xE) : readingsOfOp 0xE w = (decodeOpE w).toList := by
  have hrows : rowsOfOp 0xE = opcodeRowsE.take 2 := rfl
  unfold decodeOpE
  split <;> simp_all [readingsOfOp, opcodeRowsE, matchesWord_F0FF]

theorem readingsOfOp_F (hop : fieldOp w = 0xF) : readingsOfOp 0xF w = (decodeOpF w).toList := by
  have hrows : rowsOfOp 0xF = opcodeRowsE.drop 2 := rfl
  unfold decodeOpF
  split <;> simp_all [readingsOfOp, opcodeRowsE, matchesWord_F0FF]

theorem readingsOfOp_fieldOp (w : Word) : readingsOfOp (fieldOp w) w = (decodeWord w).toList := by
  unfold decodeWord
  split
  case h_1 hop => rw [hop]; exact readingsOfOp_zero
  case h_6 hop | h_10 hop => -- 5xy0, 9xy0
    rw [hop]
    exact readingsOfOp_of_row_F00F hop rfl rfl
  case h_9 hop => rw [hop]; exact readingsOfOp_eight hop
  case h_15 hop => rw [hop]; exact readingsOfOp_E hop
  case h_16 hop => rw [hop]; exact readingsOfOp_F hop
  case h_17 => -- no top nibble is above 15
    have := fieldOp_lt w
    simp only [imp_false] at *
    omega
  all_goals next hop => rw [hop]; exact readingsOfOp_of_row_F000 hop rfl rfl

end Sys2Proof
end

section
/-! SUPPORT. The decode-error space by top nibble (spec/30_encoding.md R91): the words of one top nibble are counted by the
values of the one field that decides, so no word is decoded one by one. -/

namespace Sys2Proof

variable {w : Word}

/-! ### Counting -/

/-- Of the numbers below `n`, all but the listed ones. -/
theorem countP_range_notMem {n : Nat} {S : List Nat} (hnodup : S.Nodup) (hlt : ∀ k ∈ S, k < n) :
    (List.range n).countP (· ∉ S) = n - S.length := by
  have hmem : (List.range n).countP (· ∈ S) = S.length := by
    rw [List.countP_eq_length_filter]
    refine List.Perm.length_eq ((List.perm_ext_iff_of_nodup (List.nodup_range.filter _) hnodup).2 fun k => ?_)
    simpa using hlt k
  have := (List.range n).length_eq_countP_add_countP (· ∈ S)
  simp only [List.length_range, hmem, decide_not, Bool.decide_eq_true] at *
  omega

/-- A property of `k % a` holds equally often in each of the `m` periods of length `a`. -/
theorem countP_range_mul_mod (m a : Nat) (q : Nat → Bool) :
    (List.range (m * a)).countP (fun k => q (k % a)) = m * (List.range a).countP q := by
  induction m with
  | zero => simp
  | succ m ih =>
    have hblock : ((fun k => q (k % a)) ∘ fun j => m * a + j) = fun j => q (j % a) := by
      funext j
      simp
    rw [Nat.succ_mul, List.range_add, List.countP_append, ih, List.countP_map, hblock, Nat.succ_mul]
    congr 1
    exact List.countP_congr fun j hj => by rw [Nat.mod_eq_of_lt (List.mem_range.1 hj)]

/-! ### The words of one top nibble -/

/-- The word with the top nibble `op` and the low 12 bits `k`. -/
def opWord (op k : Nat) : Word := BitVec.ofNat 16 (op * 4096 + k)

section
variable {op k : Nat} (hop : op < 16) (hk : k < 4096)
include hop hk

theorem opWord_toNat : (opWord op k).toNat = op * 4096 + k := Nat.mod_eq_of_lt (by omega)

theorem fieldOp_opWord : fieldOp (opWord op k) = op := by
  rw [fieldOp_eq, opWord_toNat hop hk]; omega
theorem fieldN_opWord : fieldN (opWord op k) = k % 16 := by
  rw [fieldN_eq, opWord_toNat hop hk]; omega
theorem fieldKK_opWord : (fieldKK (opWord op k)).toNat = k % 256 := by
  rw [fieldKK_toNat, opWord_toNat hop hk]; omega
theorem fieldNNN_opWord : (fieldNNN (opWord op k)).toNat = k % 4096 := by
  rw [fieldNNN_toNat, opWord_toNat hop hk]; omega

end

/-- How many words with the top nibble `op` are no instruction. -/
def rejectCount (op : Nat) : Nat := (List.range 4096).countP fun k => (decodeWord (opWord op k)).isNone

/-- Where a field with `a` values decides, and the values that make an instruction are those in `S`. -/
theorem rejectCount_of_field {op m a : Nat} {S : List Nat} (field : Word → Nat) (hop : op < 16) (hma : m * a = 4096)
    (hfield : ∀ k < 4096, field (opWord op k) = k % a) (hnodup : S.Nodup) (hlt : ∀ k ∈ S, k < a)
    (h : ∀ w, fieldOp w = op → (decodeWord w).isNone = decide (field w ∉ S)) : rejectCount op = m * (a - S.length) := by
  rw [rejectCount, ← countP_range_notMem hnodup hlt, ← countP_range_mul_mod, hma]
  refine List.countP_congr fun k hk => ?_
  have hk := List.mem_range.1 hk
  rw [h _ (fieldOp_opWord hop hk), hfield k hk]

/-! ### The field values that make an instruction (R90) -/

theorem isNone_decodeWord_of_op_zero (hop : fieldOp w = 0x0) :
    (decodeWord w).isNone = decide ((fieldNNN w).toNat ∉ [0x0E0, 0x0EE]) := by
  have hword (c : Nat) (hc : c < 4096) : w = BitVec.ofNat 16 c ↔ (fieldNNN w).toNat = c := by
    rw [fieldOp_eq] at hop
    rw [← BitVec.toNat_inj, fieldNNN_toNat, BitVec.toNat_ofNat]
    omega
  simp only [decodeWord, hop, hword 0x0E0 (by omega), hword 0x0EE (by omega)]
  split
  · simp [*]
  · split <;> simp [*]

theorem isNone_decodeWord_of_op_five_nine (hop : fieldOp w = 0x5 ∨ fieldOp w = 0x9) :
    (decodeWord w).isNone = decide (fieldN w ∉ [0x0]) := by
  obtain hop | hop := hop <;> (simp only [decodeWord, hop]; split <;> simp [*])

theorem isNone_decodeWord_of_op_eight (hop : fieldOp w = 0x8) :
    (decodeWord w).isNone = decide (fieldN w ∉ [0x0, 0x1, 0x2, 0x3, 0x4, 0x5, 0x6, 0x7, 0xE]) := by
  simp only [decodeWord, hop, decodeOp8]
  split <;> simp_all

theorem isNone_decodeWord_of_op_E (hop : fieldOp w = 0xE) :
    (decodeWord w).isNone = decide ((fieldKK w).toNat ∉ [0x9E, 0xA1]) := by
  simp only [decodeWord, hop, decodeOpE]
  split <;> simp_all

theorem isNone_decodeWord_of_op_F (hop : fieldOp w = 0xF) :
    (decodeWord w).isNone =
      decide ((fieldKK w).toNat ∉ [0x07, 0x0A, 0x15, 0x18, 0x1E, 0x29, 0x33, 0x55, 0x65]) := by
  simp only [decodeWord, hop, decodeOpF]
  split <;> simp_all

/-! ### The counts of R91 -/

theorem rejectCount_zero : rejectCount 0x0 = 1 * (4096 - 2) :=
  rejectCount_of_field (fun w => (fieldNNN w).toNat) (by omega) rfl (fun _ => fieldNNN_opWord (by omega)) (by decide)
    (by decide) fun _ => isNone_decodeWord_of_op_zero

theorem rejectCount_five_nine {op : Nat} (hop : op = 0x5 ∨ op = 0x9) : rejectCount op = 256 * (16 - 1) :=
  rejectCount_of_field fieldN (by omega) rfl (fun _ => fieldN_opWord (by omega)) (by decide) (by decide)
    fun _ hw => isNone_decodeWord_of_op_five_nine (hw ▸ hop)

theorem rejectCount_eight : rejectCount 0x8 = 256 * (16 - 9) :=
  rejectCount_of_field fieldN (by omega) rfl (fun _ => fieldN_opWord (by omega)) (by decide) (by decide)
    fun _ => isNone_decodeWord_of_op_eight

theorem rejectCount_E : rejectCount 0xE = 16 * (256 - 2) :=
  rejectCount_of_field (fun w => (fieldKK w).toNat) (by omega) rfl (fun _ => fieldKK_opWord (by omega)) (by decide)
    (by decide) fun _ => isNone_decodeWord_of_op_E

theorem rejectCount_F : rejectCount 0xF = 16 * (256 - 9) :=
  rejectCount_of_field (fun w => (fieldKK w).toNat) (by omega) rfl (fun _ => fieldKK_opWord (by omega)) (by decide)
    (by decide) fun _ => isNone_decodeWord_of_op_F

/-- The top nibbles without a second field have no decode error. -/
theorem rejectCount_of_no_second_field {op : Nat} (hop : op ∈ [0x1, 0x2, 0x3, 0x4, 0x6, 0x7, 0xA, 0xB, 0xC, 0xD]) :
    rejectCount op = 0 := by
  have hlt : op < 16 := by revert op; decide
  have hsome {w : Word} (hw : fieldOp w = op) : (decodeWord w).isNone = false := by
    fin_cases hop <;> simp [decodeWord, hw]
  refine List.countP_eq_zero.2 fun k hk => ?_
  rw [hsome (fieldOp_opWord hlt (List.mem_range.1 hk))]
  exact Bool.false_ne_true

end Sys2Proof
end

section
/-! SUPPORT. A tick down to the decoded instruction, scripted or drawn, and a tick of a halted core (spec/30_encoding.md R94,
R95). -/

namespace Sys2Proof.Machine

variable {s : State} {i : Instr} {keys : Keys} {rand : Byte} {rest : List Transaction}

@[simp] theorem State.tickStart_mem : (s.tickStart keys rand rest).mem = s.mem := by
  simp [State.tickStart_eq]

@[simp] theorem State.fetchWord_tickStart : (s.tickStart keys rand rest).fetchWord = s.fetchWord := by
  simp [State.fetchWord]

theorem fetchAndExec_of_decodeWord (hf : fetchOutOfRange s.pc = false) (hd : decodeWord s.fetchWord = some i) :
    fetchAndExec s = exec i (s.withPc (s.pc + 2)) := by
  simp [fetchAndExec, hf, hd]

/-- The tick start fetches the word of the state before it: the latch writes neither PC nor memory. -/
theorem fetchAndExec_tickStart (hpc : s.pc.toNat ≤ 0xFFE) (hd : decodeWord s.fetchWord = some i) :
    fetchAndExec (s.tickStart keys rand rest) = exec i ((s.tickStart keys rand rest).withPc (s.pc + 2)) := by
  have hf : fetchOutOfRange (s.tickStart keys rand rest).pc = false := by
    rw [State.tickStart_pc, ← Bool.not_eq_true, fetchOutOfRange_iff]
    omega
  rw [fetchAndExec_of_decodeWord hf (by rwa [State.fetchWord_tickStart]), State.tickStart_pc]

/-- Without a script, a running core ticks after the drawn number of timer ticks (log entry 4). -/
theorem step_of_no_script_running (hs : s.script = []) (hr : s.status = .running) :
    step s = fetchAndExec (((s.timerTicks (Config.drawTimerTicks s.draws)).withDraws (s.draws + 1)).tickStart
      (Config.drawKeys s.draws) (Config.drawRand s.draws) []) := by
  have hbase : ((s.timerTicks (Config.drawTimerTicks s.draws)).withDraws (s.draws + 1)).withScript [] =
      (s.timerTicks (Config.drawTimerTicks s.draws)).withDraws (s.draws + 1) := by
    cases s
    cases hs
    rfl
  rw [State.tickStart_eq, hbase]
  simp [step, nextTransaction, hs, drawnTick, tick, hr]

theorem step_of_tick_halted {e : FatalError} (hs : s.script = .tick keys rand :: rest) (hh : s.status = .halted e) :
    step s = .next ((((s.withScript rest).withInputs keys rand).withDisp .none).withEvent (.halted e)) := by
  simp [step, nextTransaction, hs, perform, tick, hh]

end Sys2Proof.Machine
end

section
/-! PROOFS. The statements of spec/30_encoding.md. -/

namespace Sys2Proof.Machine

/-- Settles O2: the word of the instruction decodes to it, and its two bytes are all that is consumed. -/
theorem decodeOfEncode : Obligations.DecodeOfEncode := by
  intro i rest hi
  exact decode_bytesOfWord_append (decodeWord_encodeWord hi) rest

/-- Settles O3: by top nibble, each format is put together again from the fields of the word. -/
theorem encodeOfDecode : Obligations.EncodeOfDecode :=
  fun _ _ => decodeWord_hasWord

/-- Settles O4: only the rows of the word's top nibble can match, and those agree with the decoder's dispatch. -/
theorem wordDecodesToTheOneRowItMatches : Obligations.WordDecodesToTheOneRowItMatches := by
  refine ⟨rfl, fun w => ?_⟩
  rw [filter_opcodeMap_matchesWord]
  exact readingsOfOp_fieldOp w

/-- Settles O1: the twelve byte strings are decoded by evaluation. -/
theorem wordsOfEachFamilyDecode : Obligations.WordsOfEachFamilyDecode := by
  unfold Obligations.WordsOfEachFamilyDecode
  decide

/-- Settles O5: one count for each top nibble, by the field that decides there. -/
theorem decodeErrorSpaceCounted : Obligations.DecodeErrorSpaceCounted := by
  change (List.range 16).map rejectCount = _
  rw [show List.range 16 = [0x0, 0x1, 0x2, 0x3, 0x4, 0x5, 0x6, 0x7, 0x8, 0x9, 0xA, 0xB, 0xC, 0xD, 0xE, 0xF] from rfl]
  simp [rejectCount_zero, rejectCount_five_nine, rejectCount_eight, rejectCount_E, rejectCount_F,
    rejectCount_of_no_second_field]

/-- Settles O7: the bytes at PC are the word that the tick start fetches, whichever tick it is. -/
theorem stepRunsTheDecodedInstruction : Obligations.StepRunsTheDecodedInstruction := by
  intro s i hr hpc hdec
  have hd : decodeWord s.fetchWord = some i := decodeWord_of_decode_eq_instr hdec
  refine ⟨fun keys rand rest hs => ?_, fun hs => ?_⟩
  · rw [step_of_tick_running hs hr, fetchAndExec_tickStart hpc hd]
  · rw [step_of_no_script_running hs hr]
    exact fetchAndExec_tickStart hpc hd

/-- Settles O11: a tick of a halted core writes the ports and the event, and no element of the block. -/
theorem haltedTickChangesNothing : Obligations.HaltedTickChangesNothing :=
  fun _ _ _ _ _ hs hh => step_of_tick_halted hs hh

end Sys2Proof.Machine
end

section
/-! SUPPORT. Jumps and skips as one update of PC (spec/40_control_flow.md R110, R118), and the words of op 5 and 9 that are no
instruction (R116, R117). -/

namespace Sys2Proof.Machine

/-! ### PC alone -/

/-- The instruction completes with PC at `target` and everything else as it was. -/
def MovesPcTo (i : Instr) (s : State) (target : Word) : Prop :=
  ∃ t, exec i s = .next t ∧ t.pc = target ∧ t = { s with pc := t.pc } ∧ ∀ a, t.mem.read a = s.mem.read a

variable {i : Instr} {s : State}

theorem movesPcTo_of_withPc {target : Word} (h : exec i s = .next (s.withPc target)) : MovesPcTo i s target :=
  ⟨_, h, rfl, rfl, fun _ => rfl⟩

theorem State.skipIf_eq_withPc (s : State) (c : Bool) : s.skipIf c = s.withPc (if c then s.pc + 2 else s.pc) := by
  cases c <;> rfl

theorem movesPcTo_of_skipIf {c : Bool} (h : exec i s = .next (s.skipIf c)) :
    MovesPcTo i s (if c then s.pc + 2 else s.pc) :=
  movesPcTo_of_withPc (h.trans (congrArg _ (s.skipIf_eq_withPc c)))

theorem movesPcTo_of_skipIf_eq {p q : Byte} (h : exec i s = .next (s.skipIf (p == q))) :
    MovesPcTo i s (if p = q then s.pc + 2 else s.pc) := by
  simpa only [beq_iff_eq] using movesPcTo_of_skipIf h

theorem movesPcTo_of_skipIf_ne {p q : Byte} (h : exec i s = .next (s.skipIf (p != q))) :
    MovesPcTo i s (if p = q then s.pc else s.pc + 2) := by
  simpa only [bne_iff_ne, ite_not] using movesPcTo_of_skipIf h

/-! ### The target of Bnnn -/

@[simp] theorem widen_toNat (x : Byte) : (widen x).toNat = x.toNat :=
  BitVec.toNat_setWidth_of_le (by decide)

/-- Bnnn's sum is at most 0x10FE, so it is the sum of the naturals (R118). -/
theorem widen_add_addrOf_toNat (x : Byte) (nnn : BitVec 12) : (widen x + addrOf nnn).toNat = x.toNat + nnn.toNat := by
  rw [BitVec.toNat_add, widen_toNat, addrOf_toNat]
  omega

/-! ### Words of op 5 and 9 -/

theorem decodeWord_encodeXYN_eq_none {op n : BitVec 4} (x y : Reg) (hop : op.toNat = 0x5 ∨ op.toNat = 0x9) (hn : n ≠ 0) :
    decodeWord (encodeXYN op x y n) = none := by
  have hn : n.toNat ≠ 0 := fun h => hn (BitVec.eq_of_toNat_eq h)
  have hnone := isNone_decodeWord_of_op_five_nine (w := encodeXYN op x y n) (by rwa [fieldOp_encodeXYN])
  simpa [hn] using hnone

end Sys2Proof.Machine
end

section
/-! PROOFS. The statements of spec/40_control_flow.md. -/

namespace Sys2Proof.Machine

/-- Settles O31: the return pops the entry that the call has just pushed, which is the PC of the state before the call. -/
theorem returnUndoesCall : Obligations.ReturnUndoesCall := by
  intro nnn s h
  obtain ⟨t, hcall, -, htsp, hpushed, hothers, ht, -⟩ := callPushesTheReturnAddress.1 nnn s h
  obtain ⟨u, hret, hupc, husp, hu, -⟩ := returnPopsIntoPc.1 t s.sp.val h htsp
  have hpc : u.pc = s.pc := hupc.trans hpushed
  have hsp : u.sp = s.sp := Fin.ext husp
  have hstack : u.stack = t.stack := by rw [hu]
  refine ⟨t, u, hcall, hret, ?_, fun k hk hne => ?_⟩
  · rw [hstack, hu, hpc, hsp, ht]
  · simpa only [hstack] using hothers k hk hne

/-- Settles O25: the jump is one update of PC. -/
theorem jumpSetsPc : Obligations.JumpSetsPc := by
  intro nnn s
  exact ⟨Laws.RoundTrip.jp nnn rfl, _, rfl, addrOf_toNat nnn, rfl, fun _ => rfl⟩

/-- Settles O27: the two words decode, and each skip is one update of PC. -/
theorem immediateSkips : Obligations.ImmediateSkips := by
  intro x kk s
  refine ⟨Laws.RoundTrip.seImm x kk rfl, Laws.RoundTrip.sneImm x kk rfl, ?_, ?_⟩
  · exact movesPcTo_of_skipIf_eq rfl
  · exact movesPcTo_of_skipIf_ne rfl

/-- Settles O28: as O27, and the words with another `n` fail the decoder's test of it. -/
theorem registerSkips : Obligations.RegisterSkips := by
  intro x y s
  refine ⟨Laws.RoundTrip.seReg x y rfl, Laws.RoundTrip.sneReg x y rfl, fun n hn => ⟨?_, ?_⟩, ?_, ?_⟩
  · exact decodeWord_encodeXYN_eq_none x y (.inl rfl) hn
  · exact decodeWord_encodeXYN_eq_none x y (.inr rfl) hn
  · exact movesPcTo_of_skipIf_eq rfl
  · exact movesPcTo_of_skipIf_ne rfl

/-- Settles O29: the jump is one update of PC, to a sum that cannot wrap. -/
theorem jumpWithOffsetUsesV0 : Obligations.JumpWithOffsetUsesV0 := by
  intro nnn s
  exact ⟨_, rfl, widen_add_addrOf_toNat (s.reg V0) nnn, rfl, fun _ => rfl⟩

end Sys2Proof.Machine
end

section
/-! SUPPORT. What a write of Vx, and of Vx and then VF, changes and what it leaves (spec/41_alu.md R130), and the flags as numbers
(R137 to R141). -/

namespace Sys2Proof.Machine

/-! ### Vx alone, and Vx with the flag -/

section
variable (s : State) (x : Reg) (b flag : Byte)

/-- All that a write of Vx leaves. -/
theorem State.setReg_frame : (∀ r, r ≠ x → (s.setReg x b).reg r = s.reg r) ∧
    s.setReg x b = { s with v := (s.setReg x b).v } ∧ ∀ a, (s.setReg x b).mem.read a = s.mem.read a :=
  ⟨fun _ h => s.reg_setReg_ne b h, rfl, fun _ => rfl⟩

/-- All that a write of Vx and then VF leaves. -/
theorem State.setRegFlag_frame : (∀ r, r ≠ x → r ≠ VF → (s.setRegFlag x b flag).reg r = s.reg r) ∧
    s.setRegFlag x b flag = { s with v := (s.setRegFlag x b flag).v } ∧
    ∀ a, (s.setRegFlag x b flag).mem.read a = s.mem.read a :=
  ⟨fun r hx hf => by rw [s.reg_setRegFlag, if_neg hf, if_neg hx], rfl, fun _ => rfl⟩

/-- The flag is written last (D2). -/
@[simp] theorem State.reg_setRegFlag_VF : (s.setRegFlag x b flag).reg VF = flag := by
  rw [s.reg_setRegFlag, if_pos rfl]

variable {x}

theorem State.reg_setRegFlag_same (h : x ≠ VF) : (s.setRegFlag x b flag).reg x = b := by
  rw [s.reg_setRegFlag, if_neg h, if_pos rfl]

end

/-! ### The flags -/

section
variable (p q : Byte)

theorem carryFlag_eq : carryFlag p q = if 255 < p.toNat + q.toNat then 1 else 0 := by
  simp only [carryFlag, flagByte, decide_eq_true_eq]

theorem noBorrowFlag_eq : noBorrowFlag p q = if q.toNat ≤ p.toNat then 1 else 0 := by
  simp only [noBorrowFlag, flagByte, decide_eq_true_eq]

theorem flagByte_toNat (c : Bool) : (flagByte c).toNat = c.toNat := by
  cases c <;> rfl

theorem shiftRightFlag_toNat : (shiftRightFlag p).toNat = p.toNat % 2 := by
  rw [shiftRightFlag, flagByte_toNat, BitVec.getLsbD, Nat.toNat_testBit, Nat.pow_zero, Nat.div_one]

/-- Above bit 7 a byte has nothing, so the quotient is that bit. -/
theorem shiftLeftFlag_toNat : (shiftLeftFlag p).toNat = p.toNat / 128 := by
  have := p.isLt
  rw [shiftLeftFlag, flagByte_toNat, BitVec.getLsbD, Nat.toNat_testBit]
  omega

/-! ### Subtraction and shifts as numbers -/

theorem byte_sub_toNat : (p - q).toNat = (256 + p.toNat - q.toNat) % 256 := by
  have := q.isLt
  rw [BitVec.toNat_sub]
  omega

theorem byte_shiftRight_one_toNat : (p >>> 1).toNat = p.toNat / 2 := by
  rw [BitVec.toNat_ushiftRight, Nat.shiftRight_eq_div_pow, Nat.pow_one]

theorem byte_shiftLeft_one_toNat : (p <<< 1).toNat = 2 * p.toNat % 256 := by
  rw [BitVec.toNat_shiftLeft, Nat.shiftLeft_eq, Nat.pow_one, Nat.mul_comm]

end

end Sys2Proof.Machine
end

section
/-! PROOFS. The statements of spec/41_alu.md. -/

namespace Sys2Proof.Machine

/-- Settles O32: the three words decode, and each instruction is one write of Vx. -/
theorem loadsAndAddImmediate : Obligations.LoadsAndAddImmediate := by
  intro x y kk s
  refine ⟨Laws.RoundTrip.ldImm x kk rfl, Laws.RoundTrip.addImm x kk rfl, Laws.RoundTrip.ldReg x y rfl, ?_, ?_, ?_⟩
  · exact ⟨_, rfl, s.reg_setReg_same x _, s.setReg_frame x _⟩
  · refine ⟨_, rfl, ?_, s.setReg_frame x _⟩
    rw [State.reg_setReg_same, BitVec.toNat_add]
  · exact ⟨_, rfl, s.reg_setReg_same x _, s.setReg_frame x _⟩

/-- Settles O33: each instruction is one write of Vx, whose bits are the library's for the three operations. -/
theorem logicIsBitwise : Obligations.LogicIsBitwise := by
  intro x y s
  refine ⟨⟨_, rfl, fun b => ?_, s.setReg_frame x _⟩, ⟨_, rfl, fun b => ?_, s.setReg_frame x _⟩,
    ⟨_, rfl, fun b => ?_, s.setReg_frame x _⟩⟩
  · rw [State.reg_setReg_same, BitVec.getLsbD_or]
  · rw [State.reg_setReg_same, BitVec.getLsbD_and]
  · rw [State.reg_setReg_same, BitVec.getLsbD_xor]

/-- Settles O34: the sum is written to Vx, and then the carry to VF. -/
theorem addSetsCarry : Obligations.AddSetsCarry := by
  intro x y s
  refine ⟨_, rfl, ?_, fun hx => ?_, s.setRegFlag_frame x _ _⟩
  · rw [State.reg_setRegFlag_VF, carryFlag_eq]
  · rw [s.reg_setRegFlag_same _ _ hx, BitVec.toNat_add]

/-- Settles O35: the difference is written to Vx, and then NOT borrow to VF; 8xy7 has the operands the other way round. -/
theorem subtractionsSetNoBorrow : Obligations.SubtractionsSetNoBorrow := by
  intro x y s
  refine ⟨⟨_, rfl, ?_, fun hx => ?_, s.setRegFlag_frame x _ _⟩, ⟨_, rfl, ?_, fun hx => ?_, s.setRegFlag_frame x _ _⟩⟩
  · rw [State.reg_setRegFlag_VF, noBorrowFlag_eq]
  · rw [s.reg_setRegFlag_same _ _ hx, byte_sub_toNat]
  · rw [State.reg_setRegFlag_VF, noBorrowFlag_eq]
  · rw [s.reg_setRegFlag_same _ _ hx, byte_sub_toNat]

/-- Settles O36: the shifted Vx is written, and then the bit shifted out of it to VF; neither reads Vy. -/
theorem shiftsSetTheBitShiftedOut : Obligations.ShiftsSetTheBitShiftedOut := by
  intro x y s
  refine ⟨⟨_, rfl, ?_, fun hx => ?_, s.setRegFlag_frame x _ _⟩, ⟨_, rfl, ?_, fun hx => ?_, s.setRegFlag_frame x _ _⟩⟩
  · rw [State.reg_setRegFlag_VF, shiftRightFlag_toNat]
  · rw [s.reg_setRegFlag_same _ _ hx, byte_shiftRight_one_toNat]
  · rw [State.reg_setRegFlag_VF, shiftLeftFlag_toNat]
  · rw [s.reg_setRegFlag_same _ _ hx, byte_shiftLeft_one_toNat]

/-- Settles O37: one write of Vx, with the random byte that the state's port holds. -/
theorem randomIsMasked : Obligations.RandomIsMasked := by
  intro x kk s
  refine ⟨_, rfl, fun b => ?_, s.setReg_frame x _⟩
  rw [State.reg_setReg_same, BitVec.getLsbD_and]

end Sys2Proof.Machine
end

section
/-! SUPPORT. Operand values and checked transfers at I (spec/42_index_memory.md R160, R162 to R166): what the
instructions of memory answer where their check passes. -/

namespace Sys2Proof.Machine

/-! ### Operand values as numbers -/

theorem glyphAddr_toNat (b : Byte) : (glyphAddr b).toNat = 0x050 + 5 * (b.toNat % 16) := by
  simp only [glyphAddr, Config.fontBase, Config.glyphBytes, BitVec.toNat_ofNat]
  omega

/-- Every digit fits a byte, so none is truncated (R164). -/
theorem decimalDigits_map_toNat (b : Byte) :
    (decimalDigits b).map BitVec.toNat = [b.toNat / 100, b.toNat / 10 % 10, b.toNat % 10] := by
  have := b.isLt
  simp only [decimalDigits, List.map_cons, List.map_nil, BitVec.toNat_ofNat, List.cons.injEq, and_true]
  omega

/-! ### The instructions where their check passes -/

/-- The write check for `n + 1` bytes on one side of the font region (20_memory.md R62, R69). -/
theorem checkWrite_of_outside_font {base n : Nat} (hrange : base + n ≤ 0xFFF)
    (hfont : base + n < 0x050 ∨ 0x09F < base) : checkWrite base (n + 1) = none := by
  refine checkWrite_eq_none.2 ⟨.inr hrange, fun a hlo hhi => ?_⟩
  rw [← Bool.not_eq_true, inFont_iff]
  omega

variable {s : State} {x : Reg}

theorem execLdBVx_of_outside_font (hrange : s.i.toNat + 2 ≤ 0xFFF)
    (hfont : s.i.toNat + 2 < 0x050 ∨ 0x09F < s.i.toNat) :
    execLdBVx x s = .next (s.withMem (s.mem.writeBytes s.i.toNat (decimalDigits (s.reg x)))) := by
  rw [execLdBVx, checkWrite_of_outside_font hrange hfont, State.checked_none]

theorem execLdMemVx_of_outside_font (hrange : s.i.toNat + x.val ≤ 0xFFF)
    (hfont : s.i.toNat + x.val < 0x050 ∨ 0x09F < s.i.toNat) :
    execLdMemVx x s = .next (s.withMem (s.mem.writeBytes s.i.toNat (s.regsThrough x))) := by
  rw [execLdMemVx, checkWrite_of_outside_font hrange hfont, State.checked_none]

theorem execLdVxMem_of_range (hrange : s.i.toNat + x.val ≤ 0xFFF) :
    execLdVxMem x s = .next (s.loadRegsThrough x s.i.toNat) := by
  rw [execLdVxMem, checkRead_eq_none.2 (.inr hrange), State.checked_none]

end Sys2Proof.Machine
end

section
/-! PROOFS. The statements of spec/42_index_memory.md. -/

namespace Sys2Proof.Machine

/-- Settles O38: the word decodes, and the load is one update of I. -/
theorem loadIndex : Obligations.LoadIndex := by
  intro nnn s
  exact ⟨Laws.RoundTrip.ldI nnn rfl, _, rfl, addrOf_toNat nnn, rfl, fun _ => rfl⟩

/-- Settles O39: each instruction is one update of I, by a sum of words and by the glyph's address. -/
theorem indexArithmetic : Obligations.IndexArithmetic := by
  intro x s
  refine ⟨⟨_, rfl, ?_, rfl, fun _ => rfl⟩, ⟨_, rfl, glyphAddr_toNat (s.reg x), rfl, fun _ => rfl⟩⟩
  rw [State.withI_i, BitVec.toNat_add, widen_toNat]

/-- Settles O40: a transfer of the three digits, read back one by one. -/
theorem bcdStoresThreeDigits : Obligations.BcdStoresThreeDigits := by
  intro x s hwf hrange hfont
  have hdigit : ∀ j (hj : j < 3), ((s.mem.writeBytes s.i.toNat (decimalDigits (s.reg x))).read (s.i.toNat + j)).toNat =
      [(s.reg x).toNat / 100, (s.reg x).toNat / 10 % 10, (s.reg x).toNat % 10][j] := fun j hj => by
    rw [Memory.read_writeBytes_inside (decimalDigits (s.reg x)) hwf (Nat.add_le_add_right hrange 1) j hj]
    exact (List.getElem_map BitVec.toNat).symm.trans (List.getElem_of_eq (decimalDigits_map_toNat (s.reg x)) hj)
  refine ⟨_, execLdBVx_of_outside_font hrange hfont, hdigit 0 (by decide), hdigit 1 (by decide), hdigit 2 (by decide),
    fun a ha => ?_, rfl⟩
  exact Memory.read_writeBytes_outside s.mem (decimalDigits (s.reg x)) ha

/-- Settles O41: a transfer of the registers through x, of which byte `I + j` is Vj. -/
theorem registersAreStored : Obligations.RegistersAreStored := by
  intro x s hwf hrange hfont
  have hlen : (s.regsThrough x).length = x.val + 1 := s.regsThrough_length x
  refine ⟨_, execLdMemVx_of_outside_font hrange hfont, fun j hj => ?_, fun a ha => ?_, rfl⟩
  · have hj : j.val < (s.regsThrough x).length := hlen ▸ Nat.lt_succ_of_le hj
    rw [State.withMem_mem, Memory.read_writeBytes_inside _ hwf (by rw [hlen]; exact Nat.add_le_add_right hrange 1) j.val hj,
      State.regsThrough_getElem]
  · exact Memory.read_writeBytes_outside s.mem (s.regsThrough x) (by omega)

/-- Settles O42: the block load takes the registers through x from memory, whether or not the bytes are the font's. -/
theorem registersAreLoaded : Obligations.RegistersAreLoaded := by
  intro x s hrange
  refine ⟨_, execLdVxMem_of_range hrange, fun j hj => ?_, fun r hr => ?_, rfl, fun _ => rfl⟩
  · rw [State.reg_loadRegsThrough, if_pos hj]
  · rw [State.reg_loadRegsThrough, if_neg (not_le.2 hr)]

/-- Settles O43: the store keeps I, so the load reads the bytes that the store wrote. -/
theorem storeThenLoadRestoresRegisters : Obligations.StoreThenLoadRestoresRegisters := by
  intro x s between hwf hrange hfont
  obtain ⟨t, hstore, hstored, -, ht⟩ := registersAreStored x s hwf hrange hfont
  have hi : t.i = s.i := by rw [ht]
  obtain ⟨u, hload, hloaded, habove, -, -⟩ := registersAreLoaded x { t with v := between } (by rwa [hi])
  refine ⟨t, u, hstore, hload, fun j hj => ?_, habove⟩
  calc u.reg j = t.mem.read (t.i.toNat + j.val) := hloaded j hj
    _ = t.mem.read (s.i.toNat + j.val) := by rw [hi]
    _ = s.reg j := hstored j hj

end Sys2Proof.Machine
end

section
/-! SUPPORT. The sprite loops of spec/43_display.md R183 as one change of the grid: each loop toggles the pixels of a mask, once
each, and its hit is whether one of them was on. Loops over disjoint masks compose, so the whole sprite toggles `spriteCovers`. -/

namespace Sys2Proof.Machine

/-! ### Toggling the pixels of a mask -/

/-- From `a` to `b` the pixels of the mask are toggled, and hit is set if one of them was on (R183, R184). -/
structure XorsOver (mask : Nat → Nat → Bool) (a b : Framebuffer × Bool) : Prop where
  pixel : ∀ c r, c < 64 → r < 32 → b.1.pixel c r = (a.1.pixel c r != mask c r)
  hit : b.2 = true ↔ a.2 = true ∨ ∃ c r, a.1.pixel c r = true ∧ mask c r = true

/-- A pixel that is on lies in the grid (10_state.md R35). -/
theorem Framebuffer.inside_of_pixel {fb : Framebuffer} {c r : Nat} (h : fb.pixel c r = true) : c < 64 ∧ r < 32 := by
  by_contra hout
  simp [Framebuffer.pixel_outside fb hout] at h

section
variable {mask mask' : Nat → Nat → Bool} {a b d : Framebuffer × Bool}

theorem XorsOver.refl (hmask : ∀ c r, mask c r = false) : XorsOver mask a a where
  pixel c r _ _ := by simp [hmask]
  hit := by simp [hmask]

/-- A pixel outside the mask is as it was, in the grid or not. -/
theorem XorsOver.pixel_of_mask_false (h : XorsOver mask a b) {c r : Nat} (hm : mask c r = false) :
    b.1.pixel c r = a.1.pixel c r := by
  by_cases hin : c < 64 ∧ r < 32
  · rw [h.pixel c r hin.1 hin.2, hm, Bool.bne_false]
  · rw [Framebuffer.pixel_outside _ hin, Framebuffer.pixel_outside _ hin]

/-- Two changes over disjoint masks are one change over their union: the second meets the pixels that the first met. -/
theorem XorsOver.trans {union : Nat → Nat → Bool} (h : XorsOver mask a b) (h' : XorsOver mask' b d)
    (hdisj : ∀ c r, mask' c r = true → mask c r = false) (hunion : ∀ c r, union c r = (mask c r || mask' c r)) :
    XorsOver union a d where
  pixel c r hc hr := by
    rw [h'.pixel c r hc hr, hunion]
    cases hm : mask' c r with
    | false => rw [h.pixel c r hc hr, Bool.bne_false, Bool.or_false]
    | true => rw [h.pixel_of_mask_false (hdisj c r hm), Bool.or_true]
  hit := by
    have hsame : ∀ c r, b.1.pixel c r = true ∧ mask' c r = true ↔ a.1.pixel c r = true ∧ mask' c r = true :=
      fun c r => and_congr_left fun hm => by rw [h.pixel_of_mask_false (hdisj c r hm)]
    simp only [h'.hit, h.hit, hsame, hunion, Bool.or_eq_true, and_or_left, exists_or, or_assoc]

/-- The mask is where the two grids differ. -/
theorem XorsOver.mask_eq (h : XorsOver mask a b) {c r : Nat} (hin : c < 64 ∧ r < 32) :
    mask c r = (a.1.pixel c r != b.1.pixel c r) := by
  rw [h.pixel c r hin.1 hin.2, ← Bool.bne_assoc, bne_self_eq_false, Bool.false_bne]

/-- The pixels of the mask that were on are those turned off. -/
theorem XorsOver.exists_mask_iff_turned_off (h : XorsOver mask a b) :
    (∃ c r, a.1.pixel c r = true ∧ mask c r = true) ↔ ∃ c r, a.1.pixel c r = true ∧ b.1.pixel c r = false := by
  refine exists₂_congr fun c r => and_congr_right fun hon => ?_
  simp [h.mask_eq (Framebuffer.inside_of_pixel hon), hon]

/-- The pixels of the mask that are on afterwards are those turned on. -/
theorem XorsOver.exists_mask_iff_turned_on (h : XorsOver mask a b) :
    (∃ c r, b.1.pixel c r = true ∧ mask c r = true) ↔ ∃ c r, a.1.pixel c r = false ∧ b.1.pixel c r = true := by
  refine exists₂_congr fun c r => (and_congr_right fun hon => ?_).trans and_comm
  simp [h.mask_eq (Framebuffer.inside_of_pixel hon), hon]

end

/-! ### One pixel, discarded outside the grid -/

section
variable (cx py : Nat) (row : Byte) (acc : Framebuffer × Bool) (k c r : Nat)

theorem Framebuffer.toggle_outside (fb : Framebuffer) {c r : Nat} (h : ¬(c < 64 ∧ r < 32)) : fb.toggle c r = fb :=
  dif_neg h

/-- The grid test of the innermost step changes nothing: outside the grid there is no pixel to toggle or to meet (D1). -/
theorem xorPixel_eq : xorPixel cx py row acc k =
    if spriteBit row k then (acc.1.toggle (cx + k) py, acc.2 || acc.1.pixel (cx + k) py) else acc := by
  by_cases hin : cx + k < 64 ∧ py < 32
  · simp [xorPixel, show cx + k ≤ 63 ∧ py ≤ 31 by omega]
  · simp [xorPixel, Framebuffer.toggle_outside _ hin, Framebuffer.pixel_outside _ hin]

/-- The mask of column `k` of a sprite row, the sprite's corner at column `cx` and this row at row `py` of the grid. -/
def pixelMask : Bool := c = cx + k && r = py && spriteBit row k

theorem xorPixel_xorsOver : XorsOver (pixelMask cx py row k) acc (xorPixel cx py row acc k) := by
  rw [xorPixel_eq]
  cases hset : spriteBit row k with
  | false => exact .refl fun c r => by simp [pixelMask, hset]
  | true =>
    refine ⟨fun c r hc hr => ?_, by simp [pixelMask, hset]⟩
    rw [if_pos rfl, Framebuffer.pixel_toggle]
    by_cases hhere : c = cx + k ∧ r = py
    · obtain ⟨rfl, rfl⟩ := hhere
      simp [pixelMask, hset, hc, hr]
    · have hm : pixelMask cx py row k c r = false := by simpa [pixelMask, hset] using hhere
      rw [if_neg fun h => hhere ⟨h.1, h.2.1⟩, hm, Bool.bne_false]

/-! ### One sprite row -/

/-- The mask of the first `k` columns of a sprite row. -/
def rowMask : Bool := cx ≤ c && c < cx + k && r = py && spriteBit row (c - cx)

theorem rowMask_succ : rowMask cx py row (k + 1) c r = (rowMask cx py row k c r || pixelMask cx py row k c r) := by
  by_cases hc : c = cx + k
  · simp [rowMask, pixelMask, hc]
  · simp [rowMask, pixelMask, hc, show c < cx + (k + 1) ↔ c < cx + k by omega]

/-- The inner loop through its first `k` columns meets each of them once. -/
theorem foldl_xorPixel_xorsOver :
    XorsOver (rowMask cx py row k) acc ((List.range k).foldl (xorPixel cx py row) acc) := by
  induction k with
  | zero => exact .refl fun c r => by simp [rowMask]
  | succ k ih =>
    rw [List.range_succ, List.foldl_append]
    refine ih.trans (xorPixel_xorsOver ..) (fun c r hm => ?_) (rowMask_succ cx py row k)
    obtain ⟨⟨hc, -⟩, -⟩ : (c = cx + k ∧ r = py) ∧ spriteBit row k = true := by simpa [pixelMask] using hm
    simp [rowMask, hc]

end

/-! ### The whole sprite -/

/-- The first sprite row lies at row `py` of the grid, each later one a row below (R183). -/
theorem spriteCovers_cons (cx py : Nat) (row : Byte) (rows : List Byte) (c r : Nat) :
    spriteCovers cx py (row :: rows) c r = (rowMask cx py row 8 c r || spriteCovers cx (py + 1) rows c r) := by
  have hcol : c < cx + 8 ↔ c ≤ cx + 7 := by omega
  obtain hr | hr | hr := lt_trichotomy r py
  · simp [spriteCovers, rowMask, hr.ne, hr.not_ge, hr.not_gt]
  · simp [spriteCovers, rowMask, spriteBit, hr, hcol]
  · have hnext : r - py = r - (py + 1) + 1 := by omega
    simp [spriteCovers, rowMask, hr.ne', hr.le, hnext, Nat.succ_le_of_lt hr]

/-- The outer loop meets each row of the grid once. -/
theorem xorRows_xorsOver (cx py : Nat) (rows : List Byte) (acc : Framebuffer × Bool) :
    XorsOver (spriteCovers cx py rows) acc (xorRows cx py rows acc) := by
  induction rows generalizing py acc with
  | nil => exact .refl fun c r => by simp [spriteCovers]
  | cons row rows ih =>
    refine (foldl_xorPixel_xorsOver cx py row acc 8).trans (ih (py + 1) _) (fun c r hm => ?_)
      (spriteCovers_cons cx py row rows)
    have hr : r ≠ py := by
      rintro rfl
      simp [spriteCovers] at hm
    simp [rowMask, hr]

/-- The sprite toggles the pixels of the grid that it covers, and collides where one of them was on. -/
theorem Framebuffer.xorSprite_xorsOver (fb : Framebuffer) (cx cy : Nat) (rows : List Byte) :
    XorsOver (spriteCovers cx cy rows) (fb, false) (fb.xorSprite cx cy rows) :=
  xorRows_xorsOver cx cy rows (fb, false)

/-- The aggregate collision: a pixel that was on has a set bit over it (R184). -/
theorem Framebuffer.xorSprite_hit_iff (fb : Framebuffer) (cx cy : Nat) (rows : List Byte) :
    (fb.xorSprite cx cy rows).2 = true ↔ ∃ c r, fb.pixel c r = true ∧ spriteCovers cx cy rows c r = true := by
  simpa using (fb.xorSprite_xorsOver cx cy rows).hit

/-! ### The drawing instruction -/

theorem execDrw_of_range {s : State} {n : Nat} (x y : Reg) (h : n = 0 ∨ s.i.toNat + n - 1 ≤ 0xFFF) :
    execDrw x y n s = .next (s.drawSprite (s.reg x) (s.reg y) (s.mem.readBytes s.i.toNat n)) := by
  rw [execDrw, checkRead_eq_none.2 h, State.checked_none]

theorem collisionFlag_eq_one_iff (hit : Bool) : collisionFlag hit = 1 ↔ hit = true := by cases hit <;> decide
theorem collisionFlag_eq_zero_iff (hit : Bool) : collisionFlag hit = 0 ↔ hit = false := by cases hit <;> decide

theorem State.reg_VF_drawSprite (s : State) (cx cy : Byte) (rows : List Byte) :
    (s.drawSprite cx cy rows).reg VF = collisionFlag (s.fb.xorSprite cx.toNat cy.toNat rows).2 :=
  (s.reg_drawSprite cx cy rows VF).trans (if_pos rfl)

end Sys2Proof.Machine
end

section
/-! SUPPORT. The framebuffer through an instruction, a tick and a load (spec/43_display.md R187). -/

namespace Sys2Proof.Machine

variable {s t : State} {i : Instr}

/-- The core fetches 00E0 or Dxyn next. -/
def State.FetchesDisplay (s : State) : Prop :=
  decodeWord s.fetchWord = some .cls ∨ ∃ x y n, decodeWord s.fetchWord = some (.drw x y n)

theorem exec_fb (h : exec i s = .next t) : t.fb = s.fb ∨ i = .cls ∨ ∃ x y n, i = .drw x y n := by
  cases exec_effect h with
  | clear writer => exact .inr (.inl writer)
  | draw writer => exact .inr (.inr writer)
  | error | control | registers | index | delay | sound | callStack | memory | wait => exact .inl rfl

theorem fetchAndExec_fb (h : fetchAndExec s = .next t) :
    t.fb = s.fb ∨ (s.pc.toNat ≤ 0xFFE ∧ s.FetchesDisplay) := by
  obtain ⟨-, rfl⟩ | ⟨-, -, rfl⟩ | ⟨i, hf, hd, hi⟩ := fetchAndExec_cases h
  · exact .inl rfl
  · exact .inl rfl
  · have hpc : s.pc.toNat ≤ 0xFFE := by
      rw [← Bool.not_eq_true, fetchOutOfRange_iff] at hf
      omega
    obtain hsame | rfl | ⟨x, y, n, rfl⟩ := exec_fb hi
    · exact .inl hsame
    · exact .inr ⟨hpc, .inl hd⟩
    · exact .inr ⟨hpc, .inr ⟨x, y, n, hd⟩⟩

/-- The latch writes neither PC nor memory, so the word fetched is that of the state before the tick. -/
theorem tick_fb {keys : Keys} {rand : Byte} (h : tick keys rand s = .next t) :
    t.fb = s.fb ∨ (s.status = .running ∧ s.pc.toNat ≤ 0xFFE ∧ s.FetchesDisplay) := by
  obtain ⟨e, -, rfl⟩ | ⟨hr, hx⟩ := tick_cases h
  · exact .inl rfl
  · simpa [State.FetchesDisplay, State.fetchWord, hr] using fetchAndExec_fb hx

theorem load_fb {bytes : List Byte} (h : load bytes s = .next t) : t.fb = s.fb := by
  obtain ⟨-, ⟨-, rfl⟩ | ⟨-, rfl⟩⟩ := load_cases h <;> rfl

end Sys2Proof.Machine
end

section
/-! PROOFS. The statements of spec/43_display.md. -/

namespace Sys2Proof.Machine

/-- Settles O18: only a reset and a tick can write the framebuffer, and a tick only by the two instructions. -/
theorem framebufferChangesOnlyByItsInstructions : Obligations.FramebufferChangesOnlyByItsInstructions := by
  intro s t h
  obtain ⟨keys, rand, b, hb, ht⟩ | ⟨rest, -, rfl⟩ | ⟨bytes, rest, -, hl⟩ | ⟨mode, rest, hs, -⟩ := step_cases h
  · have hfb := tick_fb ht
    obtain ⟨rest, hs, rfl⟩ | ⟨hs, -, -, rfl⟩ := hb
    · exact hfb.imp_right fun ⟨hr, hpc, hd⟩ => .inr ⟨hr, hpc, .inr ⟨keys, rand, rest, hs⟩, hd⟩
    · exact hfb.imp_right fun ⟨hr, hpc, hd⟩ => .inr ⟨hr, hpc, .inl hs, hd⟩
  · exact .inl rfl
  · exact .inl (load_fb (s := s.withScript rest) hl)
  · exact .inr (.inl ⟨mode, rest, hs⟩)

/-- Settles O44: the word decodes, and the clear is one update of the framebuffer and one of the display output. -/
theorem clearBlanksTheFramebuffer : Obligations.ClearBlanksTheFramebuffer :=
  ⟨Laws.RoundTrip.cls rfl, fun _ => ⟨_, rfl, Framebuffer.pixel_blank, rfl, rfl, fun _ => rfl⟩⟩

/-- Settles O45: the loops toggle the pixels of the grid that the sprite covers, and VF is their hit. -/
theorem drawIsPixelwiseXor : Obligations.DrawIsPixelwiseXor := by
  intro x y n s hrange
  have hlen : (s.mem.readBytes s.i.toNat n).length = n := s.mem.readBytes_length s.i.toNat n
  refine ⟨_, s.mem.readBytes s.i.toNat n, execDrw_of_range x y hrange, hlen, fun j hj => ?_,
    (s.fb.xorSprite_xorsOver ..).pixel, ?_, ?_, fun r hr => ?_, rfl, rfl, fun _ => rfl⟩
  · rw [← hlen] at hj
    rw [List.getD_eq_getElem _ _ hj, Memory.readBytes_getElem]
  · rw [State.reg_VF_drawSprite, collisionFlag_eq_zero_iff, collisionFlag_eq_one_iff]
    exact (Bool.eq_false_or_eq_true _).symm
  · rw [State.reg_VF_drawSprite, collisionFlag_eq_one_iff, Framebuffer.xorSprite_hit_iff]
  · rw [State.reg_drawSprite, if_neg hr]

/-- Settles O46: the pixels that were on under a set bit are those that the drawing turns off. -/
theorem collisionFlagIsTheAggregate : Obligations.CollisionFlagIsTheAggregate := by
  intro x y n s t hrange h
  obtain rfl := Host.Outcome.next.inj ((execDrw_of_range x y hrange).symm.trans h)
  rw [State.reg_VF_drawSprite, collisionFlag_eq_one_iff, collisionFlag_eq_zero_iff, ← Bool.not_eq_true,
    Framebuffer.xorSprite_hit_iff]
  have hdraw := s.fb.xorSprite_xorsOver (s.reg x).toNat (s.reg y).toNat (s.mem.readBytes s.i.toNat n)
  have hoff := hdraw.exists_mask_iff_turned_off
  exact ⟨hoff.2, mt hoff.1⟩

/-- Settles O47: the second drawing toggles the pixels that the first toggled, and meets on those that the first turned on. -/
theorem drawingTwiceErases : Obligations.DrawingTwiceErases := by
  intro fb cx cy rows
  have hfirst := fb.xorSprite_xorsOver cx cy rows
  have hsecond := (fb.xorSprite cx cy rows).1.xorSprite_xorsOver cx cy rows
  refine ⟨Framebuffer.ext_pixel fun c r hc hr => ?_, ?_⟩
  · rw [hsecond.pixel c r hc hr, hfirst.pixel c r hc hr, Bool.bne_assoc, bne_self_eq_false, Bool.bne_false]
  · rw [Framebuffer.xorSprite_hit_iff]
    exact hfirst.exists_mask_iff_turned_on

end Sys2Proof.Machine
end

section
/-! SUPPORT. The keypad scan, the latch, the keypad instructions and the timer tick, each on its paths
(spec/44_keypad_timers.md R200 to R209). -/

namespace Sys2Proof.Machine

variable {s : State} {x k : Reg}

/-! ### Keys and register values -/

/-- The scan answers exactly the pressed key below which none is pressed (00_scope.md R9). -/
theorem lowestPressed_eq_some_iff {keys : Keys} :
    lowestPressed keys = some k ↔ keys.get k = true ∧ ∀ j, j < k → keys.get j = false := by
  refine ⟨lowestPressed_eq_some, fun ⟨hk, hlow⟩ => ?_⟩
  cases hscan : lowestPressed keys with
  | none => simp [lowestPressed_eq_none.1 hscan k] at hk
  | some m =>
    obtain ⟨hm, hmlow⟩ := lowestPressed_eq_some hscan
    obtain hlt | rfl | hgt := lt_trichotomy m k
    · simp [hlow m hlt] at hm
    · rfl
    · simp [hmlow k hgt] at hk

theorem keyByte_toNat (k : Reg) : (keyByte k).toNat = k.val := by
  rw [keyByte, BitVec.toNat_ofNat]
  omega

theorem keyOf_eq_some {b : Byte} (h : b.toNat = k.val) : keyOf b = some k := by
  have hlt : b.toNat < 16 := h ▸ k.isLt
  rw [keyOf, dif_pos hlt]
  exact congrArg some (Fin.ext h)

/-! ### The latch -/

theorem State.latch_of_pressed (hw : s.waitActive = true) (hk : lowestPressed s.keys = some k) :
    s.latch = (s.setReg s.waitReg (keyByte k)).withWait false s.waitReg := by
  simp [State.latch, hw, hk]

theorem State.latch_of_no_key (hk : lowestPressed s.keys = none) : s.latch = s := by
  simp [State.latch, hk]

theorem State.latch_of_no_wait (hw : s.waitActive = false) : s.latch = s := by
  simp [State.latch, hw]

/-! ### The instructions -/

theorem execSkp_of_key (h : (s.reg x).toNat = k.val) : execSkp x s = .next (s.skipIf (s.keys.get k)) := by
  rw [execSkp, keyOf_eq_some h]

theorem execSknp_of_key (h : (s.reg x).toNat = k.val) : execSknp x s = .next (s.skipIf (!s.keys.get k)) := by
  rw [execSknp, keyOf_eq_some h]

theorem movesPcTo_of_skipIf_not {i : Instr} {c : Bool} (h : exec i s = .next (s.skipIf (!c))) :
    MovesPcTo i s (if c then s.pc else s.pc + 2) := by
  simpa only [Bool.not_eq_true', ← Bool.not_eq_true, ite_not] using movesPcTo_of_skipIf h

theorem execLdVxK_of_pressed (x : Reg) (hk : lowestPressed s.keys = some k) :
    execLdVxK x s = .next (s.setReg x (keyByte k)) := by
  rw [execLdVxK, hk]

/-- With no key pressed the mode decides: AsyncLatch sets the wait (R206), Blocking goes back (R207). -/
theorem execLdVxK_of_no_key (x : Reg) (hk : lowestPressed s.keys = none) :
    (s.keyWaitMode = .asyncLatch ∧ execLdVxK x s = .next (s.withWait true x)) ∨
    (s.keyWaitMode = .blocking ∧ execLdVxK x s = .next (s.withPc (s.pc - 2))) := by
  cases hm : s.keyWaitMode with
  | asyncLatch => exact .inl ⟨rfl, by rw [execLdVxK, hk, hm]⟩
  | blocking => exact .inr ⟨rfl, by rw [execLdVxK, hk, hm]⟩

/-! ### The timer tick -/

/-- The transaction looks at no status: a halted core's timers count too (D17). -/
theorem step_of_timerTick {rest : List Transaction} (hs : s.script = .timerTick :: rest) :
    step s = .next ((s.withScript rest).timerTicks 1) := by
  simp [step, nextTransaction, hs, perform]

end Sys2Proof.Machine
end

section
/-! PROOFS. The statements of spec/44_keypad_timers.md. -/

namespace Sys2Proof.Machine

/-- Settles O8: with the wait active the latch is one write of the waiting register and the end of the wait. -/
theorem latchWritesTheLowestPressedKey : Obligations.LatchWritesTheLowestPressedKey := by
  intro s
  refine ⟨fun k hw hk hlow => ?_, fun hnone => State.latch_of_no_key (lowestPressed_eq_none.2 hnone),
    State.latch_of_no_wait⟩
  rw [State.latch_of_pressed hw (lowestPressed_eq_some_iff.2 ⟨hk, hlow⟩)]
  refine ⟨?_, fun r hr => ?_, rfl⟩
  · rw [State.reg_withWait, State.reg_setReg_same, keyByte_toNat]
  · rw [State.reg_withWait, State.reg_setReg_ne _ _ hr]

/-- Settles O48: the register names the key, and each skip is one update of PC. -/
theorem keySkips : Obligations.KeySkips := by
  intro x k s hk
  exact ⟨movesPcTo_of_skipIf (execSkp_of_key hk), movesPcTo_of_skipIf_not (execSknp_of_key hk)⟩

/-- Settles O50: the three words decode, and the transfers are one write of Vx and two updates of the timers. -/
theorem timerTransfers : Obligations.TimerTransfers := by
  intro x s
  exact ⟨Laws.RoundTrip.ldVxDt x rfl, Laws.RoundTrip.ldDtVx x rfl, Laws.RoundTrip.ldStVx x rfl,
    ⟨_, rfl, s.reg_setReg_same x s.dt, s.setReg_frame x s.dt⟩,
    ⟨s.withTimers (s.reg x) s.st, rfl, rfl, fun _ => rfl⟩,
    ⟨s.withTimers s.dt (s.reg x), rfl, rfl, fun _ => rfl⟩⟩

/-- Settles O51: the scan finds `k`, before the mode is looked at, and the instruction is one write of Vx. -/
theorem waitKeyTakesAPressedKey : Obligations.WaitKeyTakesAPressedKey := by
  intro x k s hk hlow
  refine ⟨_, execLdVxK_of_pressed x (lowestPressed_eq_some_iff.2 ⟨hk, hlow⟩), ?_, s.setReg_frame x _⟩
  rw [State.reg_setReg_same, keyByte_toNat]

/-- Settles O52: the scan finds nothing, and each mode has its one update. -/
theorem waitKeyWithNoKey : Obligations.WaitKeyWithNoKey := by
  intro x s hnone
  obtain ⟨hm, hexec⟩ | ⟨hm, hexec⟩ := execLdVxK_of_no_key x (lowestPressed_eq_none.2 hnone)
  · exact ⟨_, hexec, fun _ => rfl, fun hb => by simp [hm] at hb⟩
  · exact ⟨_, hexec, fun ha => by simp [hm] at ha, fun _ => rfl⟩

/-- Settles O54: each timer has lost `k` counts, stopping at 0, and only the two timers are updated. -/
theorem drawnTimerTicksOnlyCountDown : Obligations.DrawnTimerTicksOnlyCountDown := by
  intro s k
  exact ⟨countDown_iterate_toNat k s.dt, countDown_iterate_toNat k s.st, rfl⟩

/-- Settles O53: the step is one of the timer ticks of O54. -/
theorem timerTickCountsDown : Obligations.TimerTickCountsDown := by
  intro s rest hs
  obtain ⟨hdt, hst, ht⟩ := drawnTimerTicksOnlyCountDown (s.withScript rest) 1
  exact ⟨_, step_of_timerTick hs, hdt, hst, ht⟩

end Sys2Proof.Machine
end

section
/-! SUPPORT. The closed error table (spec/60_exceptions.md R227) against the checks of the instructions: each instruction
runs under one check, which answers the table's error. -/

namespace Sys2Proof.Machine

variable {s t : State} {i : Instr}

/-! ### The checks as closed forms -/

/-- The read check reports the first address above 0xFFF (20_memory.md R61, R69). -/
theorem checkRead_eq_rangeError (base n : Nat) : checkRead base n = rangeError base n := by
  cases hf : firstOutOfRange base n with
  | none =>
    have hin := firstOutOfRange_eq_none.1 hf
    rw [checkRead, hf, rangeError, if_neg (by omega), Option.map_none]
  | some a =>
    obtain ⟨rfl, ha⟩ := firstOutOfRange_eq_some hf
    rw [checkRead, hf, rangeError, if_pos (by omega), Option.map_some]

theorem firstProtected_eq_some {base n a : Nat} (h : firstProtected base n = some a) :
    a = max base 0x050 ∧ a < base + n ∧ a ≤ 0x09F := by
  obtain ⟨hlo, hhi, ha, hbefore⟩ := find_accessAddrs h
  simp only [← Bool.not_eq_true, inFont_iff] at ha hbefore
  have hfirst := hbefore (max base 0x050) (by omega)
  omega

/-- The font check reports the first target byte in the font region (20_memory.md R62). -/
theorem firstProtected_succ (base n : Nat) : firstProtected base (n + 1) =
    if base ≤ 0x09F ∧ 0x050 ≤ base + n then some (max base 0x050) else none := by
  cases hp : firstProtected base (n + 1) with
  | none =>
    have hout := firstProtected_eq_none.1 hp (max base 0x050)
    rw [← Bool.not_eq_true, inFont_iff] at hout
    rw [if_neg (by omega)]
  | some a =>
    obtain ⟨rfl, hhi, hfont⟩ := firstProtected_eq_some hp
    rw [if_pos (by omega)]

/-- The write check is the range and then the font region (D29). -/
theorem checkWrite_eq_storeError (base n : Nat) : checkWrite base (n + 1) = storeError base (n + 1) := by
  rw [checkWrite, checkRead_eq_rangeError, firstProtected_succ, rangeError, storeError]
  by_cases hrange : 0xFFF < base + n
  · simp [hrange]
  · by_cases hfont : base ≤ 0x09F ∧ 0x050 ≤ base + n <;> simp [hrange, hfont]

/-! ### One instruction under its check -/

/-- `t` reports what `s` reports: the status, the event and the fault log are the same. -/
def State.SameReport (s t : State) : Prop := t.status = s.status ∧ t.event = s.event ∧ t.faultLog = s.faultLog

/-- `i` runs under the check of the table: it raises the table's error, or makes writes that report nothing. -/
def RunsChecked (i : Instr) (s : State) : Prop :=
  ∃ t, s.SameReport t ∧ exec i s = .next (s.checked (errorOf i s) t)

theorem State.sameReport_skipIf (s : State) (c : Bool) : s.SameReport (s.skipIf c) :=
  ⟨s.skipIf_status c, s.skipIf_event c, s.skipIf_faultLog c⟩

theorem runsChecked_of_check {c : Option FatalCause} (hc : c = errorOf i s) (h : exec i s = .next (s.checked c t))
    (hr : s.SameReport t) : RunsChecked i s :=
  ⟨t, hr, hc ▸ h⟩

theorem runsChecked_of_error {c : FatalCause} (he : errorOf i s = some c) (h : exec i s = .next (s.raiseFatal c)) :
    RunsChecked i s :=
  runsChecked_of_check he.symm h (t := s) ⟨rfl, rfl, rfl⟩

theorem runsChecked_of_no_error (he : errorOf i s = none) (h : exec i s = .next t) (hr : s.SameReport t) :
    RunsChecked i s :=
  runsChecked_of_check he.symm h hr

theorem ret_runsChecked (s : State) : RunsChecked .ret s := by
  cases hsp : s.sp.val with
  | zero => exact runsChecked_of_error (if_pos hsp) (execRet_of_empty hsp)
  | succ k => exact runsChecked_of_no_error (if_neg (by omega)) (execRet_of_pos (by omega) hsp) ⟨rfl, rfl, rfl⟩

theorem call_runsChecked (nnn : BitVec 12) (s : State) : RunsChecked (.call nnn) s := by
  by_cases hsp : s.sp.val = 16
  · exact runsChecked_of_error (if_pos hsp) (execCall_of_full nnn hsp)
  · exact runsChecked_of_no_error (if_neg hsp) (execCall_of_lt nnn (by omega)) ⟨rfl, rfl, rfl⟩

/-- Either key skip, by whether the register names a key (44_keypad_timers.md R200). -/
theorem runsChecked_of_key_skip {x : Reg} (hi : i = .skp x ∨ i = .sknp x) : RunsChecked i s := by
  have he : errorOf i s = keyError (s.reg x) := by obtain rfl | rfl := hi <;> rfl
  by_cases hkey : 15 < (s.reg x).toNat
  · refine runsChecked_of_error (he.trans (if_pos hkey)) ?_
    obtain rfl | rfl := hi
    · exact execSkp_of_no_key hkey
    · exact execSknp_of_no_key hkey
  · have hnone := he.trans (if_neg hkey)
    obtain ⟨k, hk⟩ : ∃ k : Reg, (s.reg x).toNat = k.val := ⟨⟨(s.reg x).toNat, by omega⟩, rfl⟩
    obtain rfl | rfl := hi
    · exact runsChecked_of_no_error hnone (execSkp_of_key hk) (s.sameReport_skipIf _)
    · exact runsChecked_of_no_error hnone (execSknp_of_key hk) (s.sameReport_skipIf _)

/-- Fx0A raises nothing, with a key pressed and in both modes without one. -/
theorem ldVxK_runsChecked (x : Reg) (s : State) : RunsChecked (.ldVxK x) s := by
  cases hk : lowestPressed s.keys with
  | some k => exact runsChecked_of_no_error rfl (execLdVxK_of_pressed x hk) ⟨rfl, rfl, rfl⟩
  | none =>
    obtain ⟨-, h⟩ | ⟨-, h⟩ := execLdVxK_of_no_key x hk <;> exact runsChecked_of_no_error rfl h ⟨rfl, rfl, rfl⟩

theorem exec_runsChecked (i : Instr) (s : State) : RunsChecked i s := by
  cases i with
  | ret => exact ret_runsChecked s
  | call nnn => exact call_runsChecked nnn s
  | skp x => exact runsChecked_of_key_skip (.inl rfl)
  | sknp x => exact runsChecked_of_key_skip (.inr rfl)
  | ldVxK x => exact ldVxK_runsChecked x s
  | drw _ _ n => exact runsChecked_of_check (checkRead_eq_rangeError s.i.toNat n) rfl ⟨rfl, rfl, rfl⟩
  | ldVxMem x => exact runsChecked_of_check (checkRead_eq_rangeError s.i.toNat (x.val + 1)) rfl ⟨rfl, rfl, rfl⟩
  | ldBVx _ => exact runsChecked_of_check (checkWrite_eq_storeError s.i.toNat 2) rfl ⟨rfl, rfl, rfl⟩
  | ldMemVx x => exact runsChecked_of_check (checkWrite_eq_storeError s.i.toNat x.val) rfl ⟨rfl, rfl, rfl⟩
  | seImm _ _ | sneImm _ _ | seReg _ _ | sneReg _ _ => exact runsChecked_of_no_error rfl rfl (s.sameReport_skipIf _)
  | _ => exact runsChecked_of_no_error rfl rfl ⟨rfl, rfl, rfl⟩

end Sys2Proof.Machine
end

section
/-! SUPPORT. What a step reports (spec/60_exceptions.md R225, R229, R231, R243): which steps answer, what a tick adds to the
fault log, what a word that is no instruction does, and what a halted core keeps. -/

namespace Sys2Proof.Machine

variable {s t : State} {i : Instr} {keys : Keys} {rand : Byte} {bytes : List Byte} {rest : List Transaction}

/-! ### A step answers, or is a late load -/

theorem fetchAndExec_answers (s : State) : ∃ t, fetchAndExec s = .next t := by
  unfold fetchAndExec
  split
  · exact ⟨_, rfl⟩
  · split
    · exact ⟨_, rfl⟩
    · exact exec_answers _ _

theorem tick_answers (keys : Keys) (rand : Byte) (s : State) : ∃ t, tick keys rand s = .next t := by
  unfold tick
  split
  · exact ⟨_, rfl⟩
  · exact fetchAndExec_answers _

theorem load_answers_or_refused (bytes : List Byte) (s : State) :
    (∃ t, load bytes s = .next t) ∨ (load bytes s = .refused .loadNotAdmitted ∧ s.loadable = false) := by
  unfold load
  split
  · split <;> exact .inl ⟨_, rfl⟩
  · next hl => exact .inr ⟨rfl, by simpa using hl⟩

theorem step_of_script {tr : Transaction} (hs : s.script = tr :: rest) : step s = perform tr (s.withScript rest) := by
  simp only [step, nextTransaction, hs]

theorem step_of_no_script (hs : s.script = []) : step s = drawnTick s := by
  simp only [step, nextTransaction, hs]

/-! ### The fault log -/

/-- The log of `t` is that of `s` with the event of `t` added, unless that is Ok (R243). -/
def State.LogsEvent (s t : State) : Prop := t.faultLog = s.faultLog ++ if t.event = .ok then [] else [t.event]

theorem State.logsEvent_withEvent (s : State) (x : Event) : s.LogsEvent (s.withEvent x) := by
  by_cases hx : x = .ok <;> simp [State.LogsEvent, hx]

theorem State.SameReport.logsEvent (h : s.SameReport t) (he : s.event = .ok) : s.LogsEvent t := by
  obtain ⟨-, hevent, hlog⟩ := h
  simp [State.LogsEvent, hlog, hevent, he]

/-- An instruction that begins with the event Ok ends with the event it logs: its error, or Ok. -/
theorem exec_logsEvent (he : s.event = .ok) (h : exec i s = .next t) : s.LogsEvent t := by
  obtain ⟨u, hr, hu⟩ := exec_runsChecked i s
  obtain rfl := Host.Outcome.next.inj (hu.symm.trans h)
  obtain hc | ⟨cause, hc⟩ := s.checked_cases (errorOf i s) u <;> rw [hc]
  · exact hr.logsEvent he
  · exact s.logsEvent_withEvent (.fatal ⟨cause, s.pc - 2⟩)

theorem fetchAndExec_logsEvent (he : s.event = .ok) (h : fetchAndExec s = .next t) : s.LogsEvent t := by
  obtain ⟨-, rfl⟩ | ⟨-, -, rfl⟩ | ⟨i, -, -, hi⟩ := fetchAndExec_cases h
  · exact s.logsEvent_withEvent (.fatal ⟨.memoryOutOfRange s.pc.toNat, s.pc⟩)
  · exact s.logsEvent_withEvent (.decodeError s.fetchWord s.pc)
  · exact exec_logsEvent (s := s.withPc (s.pc + 2)) he hi

theorem tick_logsEvent (h : tick keys rand s = .next t) : s.LogsEvent t := by
  obtain ⟨e, -, rfl⟩ | ⟨-, hx⟩ := tick_cases h
  · exact s.logsEvent_withEvent (.halted e)
  · simpa [State.LogsEvent] using fetchAndExec_logsEvent (by simp) hx

/-- A tick is performed on a state with the fault log of the state the step began in. -/
theorem TickBase.faultLog {b : State} (h : TickBase s keys rand b) : b.faultLog = s.faultLog := by
  obtain ⟨rest, -, rfl⟩ | ⟨-, -, -, rfl⟩ := h <;> rfl

theorem load_logsEvent (h : load bytes s = .next t) : s.LogsEvent t := by
  obtain ⟨-, ⟨-, rfl⟩ | ⟨-, rfl⟩⟩ := load_cases h
  · exact s.logsEvent_withEvent .ok
  · exact s.logsEvent_withEvent (.loadTooLarge bytes.length)

/-! ### A word that is no instruction -/

theorem fetchAndExec_of_no_instruction (hf : fetchOutOfRange s.pc = false) (hd : decodeWord s.fetchWord = none) :
    fetchAndExec s = .next ((s.withPc (s.pc + 2)).raiseDecodeError s.fetchWord s.pc) := by
  simp only [fetchAndExec, hf, hd, Bool.false_eq_true, if_false]

/-- Where no display instruction is out, a decode error reports itself, and that is all (R229). -/
theorem State.raiseDecodeError_of_disp_none (word addr : Word) (h : s.disp = .none) :
    s.raiseDecodeError word addr = { s with
      event := .decodeError word addr, faultLog := s.faultLog ++ [.decodeError word addr] } := by
  cases s
  cases h
  rfl

/-! ### A halted core -/

/-- A tick is performed on a state with the status of the state the step began in. -/
theorem TickBase.status {b : State} (h : TickBase s keys rand b) : b.status = s.status := by
  obtain ⟨rest, -, rfl⟩ | ⟨-, -, -, rfl⟩ := h <;> rfl

/-- `t` is `s` but for the timers, the ports, the fault log and the model's own bookkeeping. -/
def State.SameCore (s t : State) : Prop :=
  t = { s with
    dt := t.dt, st := t.st, keys := t.keys, rand := t.rand, disp := t.disp, event := t.event, faultLog := t.faultLog,
    script := t.script, draws := t.draws }

/-- A halted core that admits no load keeps all but its timers, until a reset (R231). -/
theorem step_sameCore_of_halted {e : FatalError} (hl : s.loadable = false) (hh : s.status = .halted e) (hn : s.NoReset)
    (h : step s = .next t) : s.SameCore t := by
  obtain ⟨keys, rand, b, hb, ht⟩ | ⟨rest, -, rfl⟩ | ⟨bytes, rest, -, hload⟩ | ⟨mode, rest, hs, -⟩ := step_cases h
  · obtain ⟨e', -, rfl⟩ | ⟨hr, -⟩ := tick_cases ht
    · obtain ⟨rest, -, rfl⟩ | ⟨-, -, -, rfl⟩ := hb <;> rfl
    · simp [hb.status, hh] at hr
  · rfl
  · obtain ⟨hadmitted, -⟩ := load_cases hload
    exact absurd (hadmitted.symm.trans hl) (by decide)
  · exact absurd hs (hn mode rest)

end Sys2Proof.Machine
end

section
/-! PROOFS. The statements of spec/60_exceptions.md. -/

namespace Sys2Proof.Machine

/-- Settles O13: the instruction runs under one check, and the check is the table's. -/
theorem errorsAreExactlyTheTableAndPrecise : Obligations.ErrorsAreExactlyTheTableAndPrecise := by
  intro i s
  obtain ⟨t, hr, h⟩ := exec_runsChecked i s
  refine ⟨_, h, ?_⟩
  cases errorOf i s with
  | some c => rfl
  | none => exact hr

/-- Settles O14: every transaction answers but a load that is not admitted, and a drawn tick is a tick. -/
theorem onlyALateLoadIsRefused : Obligations.OnlyALateLoadIsRefused := by
  intro s
  cases hs : s.script with
  | nil =>
    rw [step_of_no_script hs]
    exact .inl (tick_answers _ _ _)
  | cons tr rest =>
    rw [step_of_script hs]
    cases tr with
    | tick keys rand => exact .inl (tick_answers keys rand _)
    | timerTick | reset => exact .inl ⟨_, rfl⟩
    | load bytes =>
      exact (load_answers_or_refused bytes (s.withScript rest)).imp_right
        fun ⟨hrefused, hl⟩ => ⟨hrefused, hl, bytes, rest, rfl⟩

/-- Settles O21: a tick and a load log their event, and the other transactions keep the log. -/
theorem faultLogRecordsEveryEvent : Obligations.FaultLogRecordsEveryEvent := by
  intro s t h
  obtain ⟨keys, rand, b, hb, ht⟩ | ⟨rest, hs, rfl⟩ | ⟨bytes, rest, hs, hl⟩ | ⟨mode, rest, hs, rfl⟩ := step_cases h
  · have hlog : t.faultLog = s.faultLog ++ if t.event = .ok then [] else [t.event] := hb.faultLog ▸ tick_logsEvent ht
    exact ⟨⟨_, hlog⟩, fun _ => hlog⟩
  · exact ⟨⟨[], (List.append_nil _).symm⟩, by simp [hs]⟩
  · exact ⟨⟨_, load_logsEvent (s := s.withScript rest) hl⟩, by simp [hs]⟩
  · exact ⟨⟨[], (List.append_nil _).symm⟩, by simp [hs]⟩

/-- Settles O12: the invariant shuts out a load, and a tick of a halted core writes no element of the block. -/
theorem onlyResetLeavesHalted : Obligations.OnlyResetLeavesHalted := by
  intro s t e hi hh hn h
  have hsame : s.SameCore t := step_sameCore_of_halted (hi.haltedNotLoadable e hh) hh hn h
  rw [hsame]
  exact ⟨hh, rfl, rfl, rfl, rfl, rfl, rfl, rfl, rfl, rfl, rfl⟩

/-- Settles O9: the tick start fetches the same word, and the error moves PC past it and reports it. -/
theorem decodeErrorIsReportedAndSkipped : Obligations.DecodeErrorIsReportedAndSkipped := by
  intro s keys rand rest hs hr hpc hd
  have hf : fetchOutOfRange (s.tickStart keys rand rest).pc = false := by
    rw [State.tickStart_pc, ← Bool.not_eq_true, fetchOutOfRange_iff]
    omega
  rw [step_of_tick_running hs hr, fetchAndExec_of_no_instruction hf (by rwa [State.fetchWord_tickStart]),
    State.raiseDecodeError_of_disp_none _ _ ((State.withPc_disp ..).trans State.tickStart_disp), State.fetchWord_tickStart,
    State.withPc_faultLog, State.tickStart_faultLog, State.tickStart_pc]
  rfl

end Sys2Proof.Machine
end

section
/-! SUPPORT. A load by its three answers, the launch state as a step that succeeds, and a tick of an idle loop
(spec/70_reset_and_hazards.md R257, R260, R267). -/

namespace Sys2Proof.Machine

variable {s t : State} {mode : KeyWaitMode} {font : FontTable} {bytes : List Byte} {rest : List Transaction}

/-! ### The load -/

theorem load_of_fits (hl : s.loadable = true) (hb : bytes.length ≤ 3584) : load bytes s =
    .next (((s.withMem (s.mem.writeBytes 0x200 bytes)).withEvent .ok).withLoadable false) := by
  rw [load, if_pos hl, if_pos (show bytes.length ≤ Config.programMax from hb), Config.programBase]

theorem load_of_too_large (hl : s.loadable = true) (hb : 3584 < bytes.length) :
    load bytes s = .next ((s.withEvent (.loadTooLarge bytes.length)).withLoadable false) := by
  rw [load, if_pos hl, if_neg (show ¬ bytes.length ≤ Config.programMax from Nat.not_le.2 hb)]

theorem load_of_not_admitted (hl : s.loadable = false) : load bytes s = .refused .loadNotAdmitted :=
  if_neg (by simp [hl])

/-- A scripted load is `load`, and the load is no longer in the script. -/
theorem step_of_load (hs : s.script = .load bytes :: rest) : step s = load bytes (s.withScript rest) :=
  step_of_script hs

/-- The launch state is what a step from construction, with the load to come, answers with the event Ok (R260). -/
theorem State.launch_eq_some_iff : State.launch mode font bytes rest = some t ↔
    step ((State.construct mode font).withScript (.load bytes :: rest)) = .next t ∧ t.event = .ok := by
  have hstep : step ((State.construct mode font).withScript (.load bytes :: rest)) =
      load bytes ((State.construct mode font).withScript rest) := step_of_load rfl
  rw [hstep, State.launch]
  cases load bytes ((State.construct mode font).withScript rest) with
  | next u =>
    simp only [Option.ite_none_right_eq_some, Option.some.injEq, Host.Outcome.next.injEq, and_comm (a := u.event = .ok)]
    exact and_congr_right fun hut => by rw [hut]
  | fault _ | refused _ => simp

/-! ### The idle loop -/

@[simp] theorem State.tickStart_status {keys : Keys} {rand : Byte} : (s.tickStart keys rand rest).status = s.status := by
  simp [State.tickStart_eq]

/-- The loop is seen in status, PC and memory, and the tick start writes none of them. -/
theorem State.IdleAt.tickStart {a : BitVec 12} (h : s.IdleAt a) (keys : Keys) (rand : Byte) (rest : List Transaction) :
    (s.tickStart keys rand rest).IdleAt a := by
  obtain ⟨hr, hpc, hw⟩ := h
  exact ⟨State.tickStart_status.trans hr, State.tickStart_pc.trans hpc, State.fetchWord_tickStart.trans hw⟩

end Sys2Proof.Machine
end

section
/-! PROOFS. The statements of spec/70_reset_and_hazards.md. -/

namespace Sys2Proof.Machine

/-! ### The load and the launch -/

/-- Settles O55: the load is one transfer to 0x200, and memory is in canonical form up to its end. -/
theorem loadPlacesTheProgram : Obligations.LoadPlacesTheProgram := by
  intro s bytes rest hs hl hwf hb
  have hend : 0x200 + bytes.length ≤ Config.memSize := by rw [Config.memSize]; omega
  exact ⟨_, (step_of_load hs).trans (load_of_fits hl hb), Memory.read_writeBytes_inside bytes hwf hend,
    fun _ => Memory.read_writeBytes_outside s.mem bytes, rfl⟩

/-- Settles O56: neither answer of such a load writes memory, and only the load that is too large has a next state. -/
theorem badLoadsWriteNothing : Obligations.BadLoadsWriteNothing := by
  intro s bytes rest hs
  rw [step_of_load hs]
  exact ⟨fun hl hb => ⟨_, load_of_too_large hl hb, rfl, rfl⟩, fun hl => load_of_not_admitted hl⟩

/-- Settles O59: the launch state is the first load of O55 from construction, whose memory is the font and 0 elsewhere; the
load of O56 that is too large has an event other than Ok. -/
theorem launchIsResetAfterOneSuccessfulLoad : Obligations.LaunchIsResetAfterOneSuccessfulLoad := by
  intro mode font bytes rest
  refine ⟨fun hb => ?_, fun hb => Option.eq_none_iff_forall_ne_some.2 fun u hu => ?_⟩
  · obtain ⟨t, hstep, hprogram, hother, ht⟩ := loadPlacesTheProgram
      ((State.construct mode font).withScript (.load bytes :: rest)) bytes rest rfl rfl (Memory.wf_construct font) hb
    have hevent : t.event = .ok := by rw [ht]
    refine ⟨t, State.launch_eq_some_iff.2 ⟨hstep, hevent⟩, hstep, hprogram, fun j hj => ?_, fun a ha => ?_, ht⟩
    · rw [hother _ (by omega)]
      exact Memory.read_construct_font font j hj
    · rw [hother a (by omega)]
      exact Memory.read_construct_outside font (by omega)
  · obtain ⟨hstep, hevent⟩ := State.launch_eq_some_iff.1 hu
    obtain ⟨t, hload, htoo, -⟩ := (badLoadsWriteNothing
      ((State.construct mode font).withScript (.load bytes :: rest)) bytes rest rfl).1 rfl hb
    obtain rfl := Host.Outcome.next.inj (hstep.symm.trans hload)
    simp [hevent] at htoo

/-! ### The reset and the idle loop -/

/-- Settles O57: `resetTo` is written as that construction. -/
theorem resetIsConstruction : Obligations.ResetIsConstruction :=
  fun _ _ _ hs => step_of_reset hs

/-- Settles O30: the word at PC decodes to the jump, which puts PC back where the tick start has it. -/
theorem idleLoopTickChangesOnlyTheLatch : Obligations.IdleLoopTickChangesOnlyTheLatch := by
  intro s a keys rand rest hs hidle ha
  have hnext := hidle.tickStart keys rand rest
  obtain ⟨hr, hpc, hw⟩ := hidle
  have hfetch : s.pc.toNat ≤ 0xFFE := by rwa [hpc, addrOf_toNat]
  have hd : decodeWord s.fetchWord = some (.jp a) := by rw [hw]; exact Laws.RoundTrip.jp a rfl
  refine ⟨?_, hnext⟩
  obtain ⟨-, hpc', -⟩ := hnext
  calc step s = fetchAndExec (s.tickStart keys rand rest) := step_of_tick_running hs hr
    _ = exec (.jp a) ((s.tickStart keys rand rest).withPc (s.pc + 2)) := fetchAndExec_tickStart hfetch hd
    _ = .next ((s.tickStart keys rand rest).withPc (addrOf a)) := rfl
    _ = .next (s.tickStart keys rand rest) := by rw [← hpc']; rfl

end Sys2Proof.Machine
end
